-- ==== Sys2Proof/Word.lean ====
section
/-! DEFINITION. The word types of the engine and the enumeration of its three widths. Nothing here computes: the
bit-level helpers stand in Sys2Proof/Machine/Operands.lean and in Sys2Proof/Decode.lean. -/

namespace Sys2Proof

/-- One input byte (20_memory.md R50, R57). -/
abbrev Byte := BitVec 8

/-- A 32-bit register value (10_state.md R39). -/
abbrev Word := BitVec 32

/-- A 64-bit value of response data, or of FL_OUT (00_scope.md R6 RSP_DATA_WIDTH, 10_state.md R36). -/
abbrev DWord := BitVec 64

/-- One 64-bit command word (00_scope.md R6 CMD_WIDTH, 30_encoding.md R71). -/
abbrev Command := BitVec 64

/-- The three widths the engine supports, for a CRC and for a Fletcher word (00_scope.md R6 CRC_WIDTHS and
FL_WORD_WIDTHS, R7). The reserved width code 3 is no width. -/
inductive Width where
  | w8
  | w16
  | w32
deriving DecidableEq, Repr

end Sys2Proof
end

