-- ==== Sys2Proof/Syntax.lean ====
section
/-! DEFINITION. The fifteen commands, one constructor per row of spec/opcode_table.json (30_encoding.md R76). An
operand is the field of the command word that carries it, as a number, with no scaling (30_encoding.md R73, R74):
which numbers are legal is said by WellFormed and by Decode, and a meaning answers an illegal one with E_ILLEGAL. -/

namespace Sys2Proof

/-- A command. `r` is a register number, `p` a preset number, `wc` a width code, `ord` the Fletcher byte order
(false: least-significant byte first), `opd` the whole 32-bit operand field: a byte operand keeps its upper 24 bits,
because it is the command, not the decoder, that answers them with E_TYPE (30_encoding.md R74). -/
inductive Instr where
  | nop
  | rd (r : BitVec 8)
  | wr (r : BitVec 8) (imm : Word)
  | rst
  | clrerr
  | crcPreset (p : BitVec 8)
  | crcStart
  | crcByteB (opd : Word)
  | crcByteT (opd : Word)
  | crcFinal
  | tabBuild
  | tabRead (opd : Word)
  | flStart (wc : BitVec 2) (ord : Bool)
  | flByte (opd : Word)
  | flFinal
deriving DecidableEq, Repr

end Sys2Proof
end

