-- ==== Sys2Proof/WellFormed.lean ====
section
/-! DEFINITION. Which command terms stand for a word that passes the decode checks (30_encoding.md R72, R77). The
value check of WR CRC_CTRL and the byte check of R74 are no decode checks: they belong to the meanings. -/

namespace Sys2Proof

/-- A register number of the map of 10_state.md R39: 0x00-0x08, 0x10-0x14, 0x1F. -/
def WellFormed.assignedNumber (r : BitVec 8) : Bool :=
  decide (r.toNat ≤ 0x08) || (decide (0x10 ≤ r.toNat) && decide (r.toNat ≤ 0x14)) || decide (r.toNat = 0x1F)

/-- The operand checks of 30_encoding.md R72, one line per command that has one. -/
def Instr.wellFormed : Instr → Bool
  | .rd r => WellFormed.assignedNumber r
  | .wr r _ => decide (r.toNat ≤ 0x03)
  | .crcPreset p => decide (p.toNat ≤ 2)
  | .flStart wc _ => decide (wc ≠ 3#2)
  | .nop => true
  | .rst => true
  | .clrerr => true
  | .crcStart => true
  | .crcByteB _ => true
  | .crcByteT _ => true
  | .crcFinal => true
  | .tabBuild => true
  | .tabRead _ => true
  | .flByte _ => true
  | .flFinal => true

/-- A command term that some command word decodes to. -/
abbrev Instr.WellFormed (i : Instr) : Prop := i.wellFormed = true

end Sys2Proof
end

