-- ==== Sys2Proof/Decode.lean ====
section
/-! DEFINITION. The decoder: total on the 2^64 command words, rejecting by name in the order of 30_encoding.md R77,
and after it the encoder, from the same patterns (30_encoding.md R76). -/

namespace Sys2Proof

/-- Which check of 30_encoding.md R77 a word fails first. All four are E_ILLEGAL for the host
(60_exceptions.md R203); the name says only which check it was. -/
inductive DecodeError where
  /-- Check 1: the opcode is not one of the fifteen. -/
  | opcode
  /-- Check 2: the reserved field RSV is not 0. -/
  | reserved
  /-- Check 3: the F field is not legal for the command. -/
  | function
  /-- Check 4: the OPD field is not 0 and the command takes no operand. -/
  | operand
deriving DecidableEq, Repr

/-- OPC, bits [63:56] (30_encoding.md R71). -/
def opcField (c : Command) : BitVec 8 := c.extractLsb' 56 8

/-- F, bits [55:48] (30_encoding.md R71). -/
def fField (c : Command) : BitVec 8 := c.extractLsb' 48 8

/-- RSV, bits [47:32] (30_encoding.md R71). -/
def rsvField (c : Command) : BitVec 16 := c.extractLsb' 32 16

/-- OPD, bits [31:0] (30_encoding.md R71). -/
def opdField (c : Command) : Word := c.extractLsb' 0 32

/-- The word-width code of FL.START, F[1:0] (30_encoding.md R72). -/
def wcOfF (f : BitVec 8) : BitVec 2 := f.extractLsb' 0 2

/-- The byte order of FL.START, F[2] (30_encoding.md R72). -/
def ordOfF (f : BitVec 8) : Bool := f.getLsbD 2

/-- The legal F of RD: an assigned register number (10_state.md R39). -/
def rdNumberLegal (f : BitVec 8) : Bool := f.ult 0x09 || (!f.ult 0x10 && f.ult 0x15) || f == 0x1F

/-- The legal F of WR: 0x00-0x03 (30_encoding.md R72). -/
def wrNumberLegal (f : BitVec 8) : Bool := f.ult 0x04

/-- The legal F of CRC.PRESET: 0, 1, 2 (30_encoding.md R72). -/
def presetNumberLegal (f : BitVec 8) : Bool := f.ult 0x03

/-- The legal F of FL.START: F[7:3] = 0 and F[1:0] not the reserved width code 3 (30_encoding.md R77). -/
def flStartFieldLegal (f : BitVec 8) : Bool := f.extractLsb' 3 5 == 0#5 && wcOfF f != 3#2

/-- Checks 2, 3 and 4 of 30_encoding.md R77, in that order: `fOk` says that F is legal for the command, `opdOk` that
its OPD passes the operand-presence check. -/
def checkedDecode (c : Command) (fOk opdOk : Bool) (i : Instr) : Except DecodeError Instr :=
  if rsvField c ≠ 0#16 then .error .reserved
  else if fOk = false then .error .function
  else if opdOk = false then .error .operand
  else .ok i

/-- The decoder (30_encoding.md R76, R77): the opcode alone selects the command. -/
def decode (c : Command) : Except DecodeError Instr :=
  let f := fField c
  let d := opdField c
  match (opcField c).toNat with
  | 0x00 => checkedDecode c (f == 0#8) (d == 0#32) .nop
  | 0x01 => checkedDecode c (rdNumberLegal f) (d == 0#32) (.rd f)
  | 0x02 => checkedDecode c (wrNumberLegal f) true (.wr f d)
  | 0x03 => checkedDecode c (f == 0#8) (d == 0#32) .rst
  | 0x04 => checkedDecode c (f == 0#8) (d == 0#32) .clrerr
  | 0x10 => checkedDecode c (presetNumberLegal f) (d == 0#32) (.crcPreset f)
  | 0x11 => checkedDecode c (f == 0#8) (d == 0#32) .crcStart
  | 0x12 => checkedDecode c (f == 0#8) true (.crcByteB d)
  | 0x13 => checkedDecode c (f == 0#8) true (.crcByteT d)
  | 0x14 => checkedDecode c (f == 0#8) (d == 0#32) .crcFinal
  | 0x18 => checkedDecode c (f == 0#8) (d == 0#32) .tabBuild
  | 0x19 => checkedDecode c (f == 0#8) true (.tabRead d)
  | 0x20 => checkedDecode c (flStartFieldLegal f) (d == 0#32) (.flStart (wcOfF f) (ordOfF f))
  | 0x21 => checkedDecode c (f == 0#8) true (.flByte d)
  | 0x22 => checkedDecode c (f == 0#8) (d == 0#32) .flFinal
  | _ => .error .opcode

/-- A command word from its four fields (30_encoding.md R71). -/
def assemble (opc f : BitVec 8) (rsv : BitVec 16) (opd : Word) : Command := opc ++ f ++ rsv ++ opd

/-- The F field of FL.START: five zero bits, the byte order, the width code (pattern `00000oww`,
30_encoding.md R76). -/
def flStartField (wc : BitVec 2) (ord : Bool) : BitVec 8 := 0#5 ++ BitVec.ofBool ord ++ wc

/-- The word of a command (30_encoding.md R76, the patterns; R80 gives one word of each). -/
def encode : Instr → Command
  | .nop => assemble 0x00 0 0 0
  | .rd r => assemble 0x01 r 0 0
  | .wr r imm => assemble 0x02 r 0 imm
  | .rst => assemble 0x03 0 0 0
  | .clrerr => assemble 0x04 0 0 0
  | .crcPreset p => assemble 0x10 p 0 0
  | .crcStart => assemble 0x11 0 0 0
  | .crcByteB opd => assemble 0x12 0 0 opd
  | .crcByteT opd => assemble 0x13 0 0 opd
  | .crcFinal => assemble 0x14 0 0 0
  | .tabBuild => assemble 0x18 0 0 0
  | .tabRead opd => assemble 0x19 0 0 opd
  | .flStart wc ord => assemble 0x20 (flStartField wc ord) 0 0
  | .flByte opd => assemble 0x21 0 0 opd
  | .flFinal => assemble 0x22 0 0 0

/-- The command word of an instruction of `nbits` bits whose bits are `w` (bit 0 the least significant, as
spec/opcode_table.json numbers them); every bit above `nbits` is 0. One command is one whole 64-bit word
(20_memory.md R55), so no byte order enters. -/
def tableWord (nbits w : Nat) : Command := BitVec.ofNat 64 (w % 2 ^ nbits)

/-- What the decoder reads from an instruction of `nbits` bits whose bits are `w`. -/
def decodeTableWord (nbits w : Nat) : Option Instr :=
  match decode (tableWord nbits w) with
  | .ok i => some i
  | .error _ => none

end Sys2Proof
end

