-- ==== Sys2Proof/Config.lean ====
section
/-! DEFINITION. What the spec leaves to the implementation (00_scope.md R6) and the free values: what the hidden
table holds after a reset (10_state.md R44, R45; 93_implementation_defined.md I6, "any value"). A free value has no
body, so no proof can know it. RSP_LATENCY and CMD_BUS_ASSEMBLY, the two OPEN parameters of R6, are not arguments of
this model: it represents no time and sees whole words (assumption log entries 8 and 9). -/

namespace Sys2Proof

/-- Free value (assumption log entry 3): what cell `index` of the table holds after the `draw`-th reset. -/
opaque Config.lutCellAfterReset (draw : Nat) (index : Byte) : Word

/-- Free value (assumption log entry 3): the polynomial of the table's key after the `draw`-th reset. -/
opaque Config.lutPolyAfterReset (draw : Nat) : Word

/-- Free value (assumption log entry 3): the width code of the table's key after the `draw`-th reset. -/
opaque Config.lutWcAfterReset (draw : Nat) : BitVec 2

end Sys2Proof
end

