-- ==== Sys2Proof/Machine/State.lean ====
section
/-! DEFINITION. The state of the engine: every piece 10_state.md R20 lists, as plain data, and beside it the model's
own host interface (the command stream, which the spec calls the program, and the response port). The views CRC_ASTAT,
CRC_APOLY, CRC_AXOR and FL_STAT store nothing of their own (10_state.md R28-R30, R35): Machine/Flags.lean computes
them. -/

namespace Sys2Proof.Machine

/-- The fields of CRC_CTRL (10_state.md R24). The register can only hold legal values (WIDTH not 3, bits [31:4] zero),
so it is held as its fields; Machine/Flags.lean gives the 32-bit register. -/
structure CrcCtrl where
  /-- WIDTH, bits [1:0]. -/
  width : Width
  /-- REFIN, bit [2]: reflect each input byte. -/
  refin : Bool
  /-- REFOUT, bit [3]: reflect the final register. -/
  refout : Bool
deriving DecidableEq, Repr

/-- A response: an 8-bit code and 64 bits of data (30_encoding.md R70, 60_exceptions.md R208). -/
structure Response where
  code : BitVec 8
  data : DWord
deriving DecidableEq, Repr

/-- What reaches the engine from outside: a command word (30_encoding.md R70, any 64-bit word), or a power-on reset at
a command boundary (70_reset_and_hazards.md R230). -/
inductive HostEvent where
  | command (c : Command)
  | powerOnReset
deriving DecidableEq, Repr

/-- The state of the engine and of its command port. -/
structure State where
  /-- CRC_POLY, register 0x00 (10_state.md R21). -/
  crcPoly : Word
  /-- CRC_INIT, register 0x01 (R22). -/
  crcInit : Word
  /-- CRC_XOROUT, register 0x02 (R23). -/
  crcXorout : Word
  /-- CRC_CTRL, register 0x03 (R24). -/
  crcCtrl : CrcCtrl
  /-- A_ACTIVE (R25): a CRC session is open. -/
  aActive : Bool
  /-- A_WC (R25): the session's width. -/
  aWc : Width
  /-- A_REFIN (R25). -/
  aRefin : Bool
  /-- A_REFOUT (R25). -/
  aRefout : Bool
  /-- A_POLY (R25), read as CRC_APOLY (R29). -/
  aPoly : Word
  /-- A_XOROUT (R25), read as CRC_AXOR (R30). -/
  aXorout : Word
  /-- CRC_REG, register 0x04 (R26). -/
  crcReg : Word
  /-- CRC_OUT, register 0x05 (R27). -/
  crcOut : Word
  /-- F_ACTIVE (R31): a Fletcher session is open. -/
  fActive : Bool
  /-- F_WC (R31): the session's word width. -/
  fWc : Width
  /-- F_ORD (R31): false is least-significant byte first, true most-significant byte first. -/
  fOrd : Bool
  /-- FL_SUM1, register 0x10 (R32). -/
  flSum1 : Word
  /-- FL_SUM2, register 0x11 (R33). -/
  flSum2 : Word
  /-- FL_PART, register 0x12 (R34). -/
  flPart : Word
  /-- F_NPART (R31): bytes already in FL_PART. -/
  fNpart : BitVec 3
  /-- FL_OUT, register 0x14, 64 bits (R36). -/
  flOut : DWord
  /-- STATUS, register 0x1F (R37). -/
  status : Word
  /-- LUT_VALID (R38). -/
  lutValid : Bool
  /-- LUT_POLY, the key's polynomial (R38). -/
  lutPoly : Word
  /-- LUT_WC, the key's width code (R38). -/
  lutWc : BitVec 2
  /-- The cells LUT[0..255] (R38), cell 0 first. Every state a run reaches holds 256 of them (Safety.lean,
  `LutHas256Cells`). -/
  lut : List Word
  /-- The model's own: what the host will deliver, the next event first (R41; 20_memory.md R55, R60). -/
  hostStream : List HostEvent
  /-- The model's own: the response port, holding the last response delivered (60_exceptions.md R208). -/
  resp : Option Response
  /-- The model's own: how many free values of the table have been drawn (assumption log entry 3). -/
  freeDraws : Nat
deriving DecidableEq, Repr

/-- Why the engine stops: it never does. An invalid command is rejected and the next one executed
(60_exceptions.md R206), there is no trap (R209) and no hang (70_reset_and_hazards.md R237), so this type is empty: no
meaning can answer a fault. -/
inductive Fault where
deriving DecidableEq, Repr

/-- Why the model gives no meaning. -/
inductive Refusal where
  /-- Raised only by an arm of exec whose instruction has no meaning yet (safe: a claim about it becomes unprovable).
  No arm raises it: every command of the opcode table has its meaning. -/
  | notModelled (mnemonic : String)
deriving DecidableEq, Repr

/-- The 256 cells the model names for the table right after power-on: all 0 (assumption log entry 3). -/
def unspecifiedTable : List Word := List.replicate 256 0#32

/-- The engine right after power-on (10_state.md R44). The cells and the key of the hidden table have no reset value in
the spec (R45); here they are 0 (assumption log entry 3). No event is waiting and no response has been delivered
(log entries 1 and 2). -/
def State.reset : State where
  crcPoly := 0x00000007#32
  crcInit := 0#32
  crcXorout := 0#32
  crcCtrl := { width := .w8, refin := false, refout := false }
  aActive := false
  aWc := .w8
  aRefin := false
  aRefout := false
  aPoly := 0#32
  aXorout := 0#32
  crcReg := 0#32
  crcOut := 0#32
  fActive := false
  fWc := .w8
  fOrd := false
  flSum1 := 0#32
  flSum2 := 0#32
  flPart := 0#32
  fNpart := 0#3
  flOut := 0#64
  status := 0#32
  lutValid := false
  lutPoly := 0#32
  lutWc := 0#2
  lut := unspecifiedTable
  hostStream := []
  resp := none
  freeDraws := 0

end Sys2Proof.Machine
end

