-- ==== Sys2Proof/Machine/Operands.lean ====
section
/-! DEFINITION. Operand forms: width codes (00_scope.md R7), the byte operand (30_encoding.md R74), the register
number (30_encoding.md R73, 10_state.md R39) and the preset number (40_crc_bitloop.md R104). -/

namespace Sys2Proof

/-- `W(wc)`, the width in bits (00_scope.md R7). -/
def Width.bits : Width → Nat
  | .w8 => 8
  | .w16 => 16
  | .w32 => 32

/-- The 2-bit width code of a width (00_scope.md R7). -/
def Width.code : Width → BitVec 2
  | .w8 => 0#2
  | .w16 => 1#2
  | .w32 => 2#2

/-- The width a code stands for; none for the reserved code 3 (00_scope.md R7). -/
def Width.ofCode? (wc : BitVec 2) : Option Width :=
  if wc = 0#2 then some .w8
  else if wc = 1#2 then some .w16
  else if wc = 2#2 then some .w32
  else none

/-- `mask(w) = 2^w - 1` (00_scope.md R9), as a register value. -/
def Width.mask (w : Width) : Word := BitVec.ofNat 32 (2 ^ w.bits - 1)

/-- "Fits the width": `v < 2^w`, the range check of 60_exceptions.md R201. -/
def Width.fits (w : Width) (v : Word) : Bool := decide (v.toNat < 2 ^ w.bits)

namespace Machine

/-- The byte or table index of an operand field: `OPD[7:0]`, or none when `OPD[31:8]` is not 0, which the spec answers
with E_TYPE (30_encoding.md R74). -/
def byteOperand? (opd : Word) : Option Byte :=
  if opd.extractLsb' 8 24 = 0#24 then some (opd.extractLsb' 0 8) else none

/-- The registers of 10_state.md R39. -/
inductive Reg where
  | crcPoly
  | crcInit
  | crcXorout
  | crcCtrl
  | crcReg
  | crcOut
  | crcAstat
  | crcApoly
  | crcAxor
  | flSum1
  | flSum2
  | flPart
  | flStat
  | flOut
  | status
deriving DecidableEq, Repr

/-- The register of a number, the map of 10_state.md R39; none for an unassigned number. -/
def regOfNumber? (r : BitVec 8) : Option Reg :=
  match r.toNat with
  | 0x00 => some .crcPoly
  | 0x01 => some .crcInit
  | 0x02 => some .crcXorout
  | 0x03 => some .crcCtrl
  | 0x04 => some .crcReg
  | 0x05 => some .crcOut
  | 0x06 => some .crcAstat
  | 0x07 => some .crcApoly
  | 0x08 => some .crcAxor
  | 0x10 => some .flSum1
  | 0x11 => some .flSum2
  | 0x12 => some .flPart
  | 0x13 => some .flStat
  | 0x14 => some .flOut
  | 0x1F => some .status
  | _ => none

/-- The staged configuration of a preset number (40_crc_bitloop.md R104: polynomial, initial value, final XOR and
control fields); none above 2. -/
def presetOfNumber? (p : BitVec 8) : Option (Word × Word × Word × CrcCtrl) :=
  match p.toNat with
  | 0 => some (0x00000007#32, 0x00000000#32, 0x00000000#32, { width := .w8, refin := false, refout := false })
  | 1 => some (0x00001021#32, 0x0000FFFF#32, 0x00000000#32, { width := .w16, refin := false, refout := false })
  | 2 => some (0x04C11DB7#32, 0xFFFFFFFF#32, 0xFFFFFFFF#32, { width := .w32, refin := true, refout := true })
  | _ => none

end Machine

end Sys2Proof
end

