-- ==== Sys2Proof/Machine/CrcFunctions.lean ====
section
/-! DEFINITION. The functions of the two CRC units: bit reflection (00_scope.md R10), the shift-register step
(40_crc_bitloop.md R100), input conditioning (R102), finalisation (R103), the table function (41_crc_table.md R130),
the table step (R132), and the whole-buffer function the spec defines from them (40_crc_bitloop.md R108). A register
value is a 32-bit word below `2^w`; what the functions do at or above it is assumption log entry 5. -/

namespace Sys2Proof.Machine

/-- `reflect8(b)` (00_scope.md R10). -/
def reflect8 (b : Byte) : Byte := b.reverse

/-- `reflectW(v, w)` (00_scope.md R10): the low `w` bits of `v` in reverse order. -/
def reflectW (v : Word) (w : Width) : Word := (v.setWidth w.bits).reverse.setWidth 32

/-- One shift of the CRC register with polynomial feedback (40_crc_bitloop.md R100, the body of the loop). -/
def crcShift1 (poly : Word) (w : Width) (r : Word) : Word :=
  if r.getLsbD (w.bits - 1) then ((r <<< 1) &&& w.mask) ^^^ poly else (r <<< 1) &&& w.mask

/-- `k` shifts. -/
def crcShifts (poly : Word) (w : Width) : Nat → Word → Word
  | 0, r => r
  | k + 1, r => crcShifts poly w k (crcShift1 poly w r)

/-- A byte at bits `[w-1:w-8]` of the register (20_memory.md R52). -/
def byteAtTop (b : Byte) (w : Width) : Word := b.setWidth 32 <<< (w.bits - 8)

/-- `crcShift8(r, b, poly, w)` (40_crc_bitloop.md R100). -/
def crcShift8 (r : Word) (b : Byte) (poly : Word) (w : Width) : Word :=
  crcShifts poly w 8 (r ^^^ byteAtTop b w)

/-- `crcIn(b, refin)` (40_crc_bitloop.md R102). -/
def crcIn (b : Byte) (refin : Bool) : Byte := if refin then reflect8 b else b

/-- `crcFinal(r, xorout, refout, w)` (40_crc_bitloop.md R103): the XOR comes before the reflection. -/
def crcFinal (r xorout : Word) (refout : Bool) (w : Width) : Word :=
  (if refout then reflectW (r ^^^ xorout) w else r ^^^ xorout) &&& w.mask

/-- `T(poly, w, i)`, the table function (41_crc_table.md R130). -/
def tableEntry (poly : Word) (w : Width) (i : Byte) : Word := crcShift8 0#32 i poly w

/-- The index of the table step: the top byte of the register XOR the conditioned byte (41_crc_table.md R132). -/
def tableIndex (r : Word) (b : Byte) (w : Width) : Byte := (r >>> (w.bits - 8)).setWidth 8 ^^^ b

/-- The register with its top byte shifted out, XORed with a table entry (41_crc_table.md R132). -/
def combineEntry (r entry : Word) (w : Width) : Word := ((r <<< 8) &&& w.mask) ^^^ entry

/-- `crcStepT(r, b, poly, w)`, the table step (41_crc_table.md R132). -/
def crcStepT (r : Word) (b : Byte) (poly : Word) (w : Width) : Word :=
  combineEntry r (tableEntry poly w (tableIndex r b w)) w

/-- All 256 entries for a key (41_crc_table.md R134). -/
def buildTable (poly : Word) (w : Width) : List Word :=
  (List.range 256).map fun i => tableEntry poly w (BitVec.ofNat 8 i)

/-- The register after the bytes `d` (40_crc_bitloop.md R108, the fold). -/
def crcFold (d : List Byte) (poly init : Word) (refin : Bool) (w : Width) : Word :=
  d.foldl (fun r b => crcShift8 r (crcIn b refin) poly w) init

/-- `crc(d, poly, init, refin, refout, xorout, w)`, the whole-buffer function (40_crc_bitloop.md R108). -/
def crc (d : List Byte) (poly init : Word) (refin refout : Bool) (xorout : Word) (w : Width) : Word :=
  crcFinal (crcFold d poly init refin w) xorout refout w

end Sys2Proof.Machine
end

