-- ==== Sys2Proof/Machine/Flags.lean ====
section
/-! DEFINITION. The error codes and STATUS (60_exceptions.md R200, R207; 10_state.md R37), and the registers that are
words of fields: CRC_CTRL (10_state.md R24), CRC_ASTAT (R28), FL_STAT (R35). -/

namespace Sys2Proof.Machine

/-- The four errors (60_exceptions.md R200). -/
inductive Err where
  /-- E_RANGE: a value exceeds the declared width (R201). -/
  | range
  /-- E_TYPE: a datum is not a byte (R202). -/
  | type
  /-- E_ILLEGAL: the word is not a legal command (R203). -/
  | illegal
  /-- E_SEQ: a data or finalisation command without an open session (R204). -/
  | seq
deriving DecidableEq, Repr

/-- The response code of an error (60_exceptions.md R200). -/
def Err.code : Err → BitVec 8
  | .range => 1#8
  | .type => 2#8
  | .illegal => 3#8
  | .seq => 4#8

/-- The response code of success (60_exceptions.md R200). -/
def okCode : BitVec 8 := 0#8

/-- STATUS after a raised error (60_exceptions.md R207): `STATUS[c] <- 1`, `STATUS.LAST_ERR <- c` (bits [11:8]),
every other bit as before. -/
def statusAfter (e : Err) (status : Word) : Word :=
  ((status ||| 1#32 <<< e.code.toNat) &&& ~~~0x00000F00#32) ||| e.code.setWidth 32 <<< 8

/-- STATUS.LAST_ERR, bits [11:8] (10_state.md R37). -/
def lastErr (status : Word) : BitVec 4 := status.extractLsb' 8 4

/-- A one-bit field at bit `k` of a register. -/
def flagBit (b : Bool) (k : Nat) : Word := (BitVec.ofBool b).setWidth 32 <<< k

/-- The 32-bit register CRC_CTRL (10_state.md R24). -/
def ctrlWord (c : CrcCtrl) : Word := c.width.code.setWidth 32 ||| flagBit c.refin 2 ||| flagBit c.refout 3

/-- The fields a value written to CRC_CTRL gives, or none for an illegal value: a bit of [31:4] set, or WIDTH = 3
(10_state.md R24, 43_engine_control.md R172). -/
def ctrlOfWord? (v : Word) : Option CrcCtrl :=
  if v.extractLsb' 4 28 = 0#28 then
    match Width.ofCode? (v.extractLsb' 0 2) with
    | some w => some { width := w, refin := v.getLsbD 2, refout := v.getLsbD 3 }
    | none => none
  else none

/-- CRC_ASTAT (10_state.md R28): A_WC in [1:0], A_REFIN in [2], A_REFOUT in [3], A_ACTIVE in [31]. -/
def crcAstat (s : State) : Word :=
  s.aWc.code.setWidth 32 ||| flagBit s.aRefin 2 ||| flagBit s.aRefout 3 ||| flagBit s.aActive 31

/-- FL_STAT (10_state.md R35): F_WC in [1:0], F_ORD in [2], F_NPART in [6:4], F_ACTIVE in [31]. -/
def flStat (s : State) : Word :=
  s.fWc.code.setWidth 32 ||| flagBit s.fOrd 2 ||| s.fNpart.setWidth 32 <<< 4 ||| flagBit s.fActive 31

end Sys2Proof.Machine
end

