-- ==== Sys2Proof/Machine/FletcherFunctions.lean ====
section
/-! DEFINITION. The functions of the Fletcher accumulator: the session constants (42_fletcher.md R150), modular
addition (R151), word assembly (R152), and the whole-buffer function the spec defines from them (R156). -/

namespace Sys2Proof

/-- `n = w / 8`, the bytes of one Fletcher word (42_fletcher.md R150). -/
def Width.bytes (w : Width) : Nat := w.bits / 8

/-- `M = 2^w - 1`, the modulus of the sums (42_fletcher.md R150). -/
def Width.modulus (w : Width) : Nat := 2 ^ w.bits - 1

namespace Machine

/-- `addM(a, x) = (a + x) mod M`, formed exactly before the modulus (42_fletcher.md R151). -/
def addM (w : Width) (a x : Word) : Word := BitVec.ofNat 32 ((a.toNat + x.toNat) % w.modulus)

/-- `pos(k)`, the byte position of byte `k` of a group (42_fletcher.md R152); `ord` is F_ORD. -/
def bytePos (w : Width) (ord : Bool) (k : Nat) : Nat := if ord then w.bytes - 1 - k else k

/-- Byte `k` of a group at its place in the word (42_fletcher.md R152). -/
def byteInWord (w : Width) (ord : Bool) (k : Nat) (b : Byte) : Word := b.setWidth 32 <<< (8 * bytePos w ord k)

/-- `(s2 << w) | s1` (42_fletcher.md R154, R155). -/
def packSums (w : Width) (s2 s1 : Word) : DWord := s2.setWidth 64 <<< w.bits ||| s1.setWidth 64

/-- One whole word into the two sums: `sum1` first, then `sum2` with the new `sum1` (42_fletcher.md R154). -/
def addWord (w : Width) (sums : Word × Word) (word : Word) : Word × Word :=
  (addM w sums.1 word, addM w sums.2 (addM w sums.1 word))

/-- The zero bytes that complete the last word of `k` bytes (42_fletcher.md R156). -/
def padCount (w : Width) (k : Nat) : Nat := (w.bytes - k % w.bytes) % w.bytes

/-- Word `g` of a padded buffer: the OR of its bytes at their places (42_fletcher.md R156). -/
def wordOfGroup (w : Width) (ord : Bool) (d : List Byte) (g : Nat) : Word :=
  (List.range w.bytes).foldl (fun v j => v ||| byteInWord w ord j (d.getD (g * w.bytes + j) 0#8)) 0#32

/-- The two sums over a padded buffer (42_fletcher.md R156, the loop). -/
def fletcherSums (d : List Byte) (w : Width) (ord : Bool) : Word × Word :=
  let padded := d ++ List.replicate (padCount w d.length) 0#8
  (List.range (padded.length / w.bytes)).foldl (fun sums g => addWord w sums (wordOfGroup w ord padded g)) (0#32, 0#32)

/-- `fletcher(d, w, ord)`, the whole-buffer function (42_fletcher.md R156). -/
def fletcher (d : List Byte) (w : Width) (ord : Bool) : DWord :=
  packSums w (fletcherSums d w ord).2 (fletcherSums d w ord).1

end Machine

end Sys2Proof
end

