-- ==== Sys2Proof/Machine/Ops.lean ====
section
/-! DEFINITION. The operations the meanings share: answering and rejecting a command (60_exceptions.md R206-R208),
reading and writing registers by number (10_state.md R39), the hidden table (41_crc_table.md R134), the two sessions,
reset (70_reset_and_hazards.md R230), and accepting the next event of the host (20_memory.md R60). A rejection is what
this engine has in place of an exception; there is no trap and no return from one (60_exceptions.md R209, R210). -/

namespace Sys2Proof.Machine

/-- A successful command delivers the response `(OK, data)` (00_scope.md R11, 60_exceptions.md R208). -/
def answer (data : DWord) (s : State) : State := { s with resp := some { code := okCode, data := data } }

/-- A rejected command changes STATUS and delivers `(code, 0)`; nothing else changes (60_exceptions.md R206, R207). -/
def reject (e : Err) (s : State) : State :=
  { s with status := statusAfter e s.status, resp := some { code := e.code, data := 0#64 } }

/-- `respond(data)` (00_scope.md R11). -/
def respond (data : DWord) (s : State) : Host.Outcome State Fault Refusal := .next (answer data s)

/-- `raise E_X` (00_scope.md R11): the machine goes on with the next command. -/
def raise (e : Err) (s : State) : Host.Outcome State Fault Refusal := .next (reject e s)

/-- `REG(n)`, zero-extended to 64 bits (10_state.md R39, 43_engine_control.md R171). -/
def readReg (r : Reg) (s : State) : DWord :=
  match r with
  | .crcPoly => s.crcPoly.setWidth 64
  | .crcInit => s.crcInit.setWidth 64
  | .crcXorout => s.crcXorout.setWidth 64
  | .crcCtrl => (ctrlWord s.crcCtrl).setWidth 64
  | .crcReg => s.crcReg.setWidth 64
  | .crcOut => s.crcOut.setWidth 64
  | .crcAstat => (crcAstat s).setWidth 64
  | .crcApoly => s.aPoly.setWidth 64
  | .crcAxor => s.aXorout.setWidth 64
  | .flSum1 => s.flSum1.setWidth 64
  | .flSum2 => s.flSum2.setWidth 64
  | .flPart => s.flPart.setWidth 64
  | .flStat => (flStat s).setWidth 64
  | .flOut => s.flOut
  | .status => s.status.setWidth 64

/-- `REG(n) <- v` for WR (43_engine_control.md R172): a staged register; none for a number WR may not write, and for
an illegal CRC_CTRL value. -/
def writeReg? (r : BitVec 8) (v : Word) (s : State) : Option State :=
  match regOfNumber? r with
  | some .crcPoly => some { s with crcPoly := v }
  | some .crcInit => some { s with crcInit := v }
  | some .crcXorout => some { s with crcXorout := v }
  | some .crcCtrl => (ctrlOfWord? v).map fun c => { s with crcCtrl := c }
  | _ => none

/-- The staged configuration a preset loads (40_crc_bitloop.md R104). -/
def loadPreset (cfg : Word × Word × Word × CrcCtrl) (s : State) : State :=
  { s with crcPoly := cfg.1, crcInit := cfg.2.1, crcXorout := cfg.2.2.1, crcCtrl := cfg.2.2.2 }

/-- The staged polynomial fits the staged width, the check of TAB.BUILD and TAB.READ (60_exceptions.md R201). -/
def stagedPolyFits (s : State) : Bool := s.crcCtrl.width.fits s.crcPoly

/-- Every staged value fits the staged width, the check of CRC.START (60_exceptions.md R201). -/
def stagedFits (s : State) : Bool :=
  s.crcCtrl.width.fits s.crcPoly && s.crcCtrl.width.fits s.crcInit && s.crcCtrl.width.fits s.crcXorout

/-- Open a CRC session with the staged configuration (40_crc_bitloop.md R105). -/
def openCrcSession (s : State) : State :=
  { s with
    aActive := true, aWc := s.crcCtrl.width, aRefin := s.crcCtrl.refin, aRefout := s.crcCtrl.refout,
    aPoly := s.crcPoly, aXorout := s.crcXorout, crcReg := s.crcInit }

/-- The table is cached for this key (41_crc_table.md R134). -/
def tableCached (poly : Word) (w : Width) (s : State) : Bool := s.lutValid && s.lutPoly == poly && s.lutWc == w.code

/-- Have the table for a key in the cache, building it when it holds another (41_crc_table.md R134). -/
def ensureTable (poly : Word) (w : Width) (s : State) : State :=
  if tableCached poly w s then s
  else { s with lut := buildTable poly w, lutPoly := poly, lutWc := w.code, lutValid := true }

/-- `LUT[i]` (10_state.md R38). -/
def lutCell (i : Byte) (s : State) : Word := s.lut.getD i.toNat 0#32

/-- Open a Fletcher session (42_fletcher.md R153). -/
def openFletcherSession (w : Width) (ord : Bool) (s : State) : State :=
  { s with
    fActive := true, fWc := w, fOrd := ord, flSum1 := 0#32, flSum2 := 0#32, flPart := 0#32, fNpart := 0#3 }

/-- Take one byte into the Fletcher session: place it, and fold a completed word into the sums
(42_fletcher.md R154). -/
def takeFletcherByte (b : Byte) (s : State) : State :=
  let part := s.flPart ||| byteInWord s.fWc s.fOrd s.fNpart.toNat b
  let npart := s.fNpart + 1#3
  if npart.toNat = s.fWc.bytes then
    let sums := addWord s.fWc (s.flSum1, s.flSum2) part
    { s with flSum1 := sums.1, flSum2 := sums.2, flPart := 0#32, fNpart := 0#3 }
  else { s with flPart := part, fNpart := npart }

/-- The Fletcher result: the incomplete last word, zero-padded, folded into a copy of the sums (42_fletcher.md R155). -/
def fletcherResult (s : State) : DWord :=
  let sums := if 0 < s.fNpart.toNat then addWord s.fWc (s.flSum1, s.flSum2) s.flPart else (s.flSum1, s.flSum2)
  packSums s.fWc sums.2 sums.1

/-- The cells of the table after the `draw`-th reset: free values (assumption log entry 3). -/
def freeTable (draw : Nat) : List Word :=
  (List.range 256).map fun i => Config.lutCellAfterReset draw (BitVec.ofNat 8 i)

/-- Every piece of the engine's state takes its reset value (10_state.md R44); the cells and the key of the table,
which have none (R45), take free values. The command port is no state of the engine and stays. -/
def resetEngine (s : State) : State :=
  { State.reset with
    lutPoly := Config.lutPolyAfterReset s.freeDraws
    lutWc := Config.lutWcAfterReset s.freeDraws
    lut := freeTable s.freeDraws
    hostStream := s.hostStream
    resp := s.resp
    freeDraws := s.freeDraws + 1 }

/-- A power-on reset: the effect of RST, and no response (70_reset_and_hazards.md R230). -/
def powerOn (s : State) : State := { resetEngine s with resp := none }

/-- Accept the host's next event: none is waiting, or the first one and the state without it (20_memory.md R60). -/
def acceptEvent? (s : State) : Option (HostEvent × State) :=
  match s.hostStream with
  | [] => none
  | e :: rest => some (e, { s with hostStream := rest })

/-- Hand a command word to the engine as the very next event. -/
def offerCommand (c : Command) (s : State) : State := { s with hostStream := .command c :: s.hostStream }

end Sys2Proof.Machine
end

