-- ==== Sys2Proof/Machine/Control.lean ====
section
/-! DEFINITION. The engine control commands NOP, RD, WR, RST, CLRERR (43_engine_control.md R170-R174). -/

namespace Sys2Proof.Machine

/-- NOP (43_engine_control.md R170). -/
def execNop (s : State) : Host.Outcome State Fault Refusal := respond 0#64 s

/-- RD r (43_engine_control.md R171). -/
def execRd (r : BitVec 8) (s : State) : Host.Outcome State Fault Refusal :=
  match regOfNumber? r with
  | some reg => respond (readReg reg s) s
  | none => raise .illegal s

/-- WR r, imm32 (43_engine_control.md R172). -/
def execWr (r : BitVec 8) (imm : Word) (s : State) : Host.Outcome State Fault Refusal :=
  match writeReg? r imm s with
  | some s' => respond 0#64 s'
  | none => raise .illegal s

/-- RST (43_engine_control.md R173). -/
def execRst (s : State) : Host.Outcome State Fault Refusal := respond 0#64 (resetEngine s)

/-- CLRERR (43_engine_control.md R174). -/
def execClrerr (s : State) : Host.Outcome State Fault Refusal := respond 0#64 { s with status := 0#32 }

end Sys2Proof.Machine
end

