-- ==== Sys2Proof/Machine/CrcBitLoop.lean ====
section
/-! DEFINITION. The commands of the CRC bit-loop unit and of the shared CRC session: CRC.PRESET, CRC.START, CRC.BYTEB,
CRC.FINAL (40_crc_bitloop.md R104-R107). -/

namespace Sys2Proof.Machine

/-- CRC.PRESET p (40_crc_bitloop.md R104). -/
def execCrcPreset (p : BitVec 8) (s : State) : Host.Outcome State Fault Refusal :=
  match presetOfNumber? p with
  | some cfg => respond 0#64 (loadPreset cfg s)
  | none => raise .illegal s

/-- CRC.START (40_crc_bitloop.md R105). -/
def execCrcStart (s : State) : Host.Outcome State Fault Refusal :=
  if stagedFits s then respond (s.crcInit.setWidth 64) (openCrcSession s) else raise .range s

/-- CRC.BYTEB b (40_crc_bitloop.md R106). -/
def execCrcByteB (opd : Word) (s : State) : Host.Outcome State Fault Refusal :=
  match byteOperand? opd with
  | none => raise .type s
  | some b =>
    if s.aActive then
      let r := crcShift8 s.crcReg (crcIn b s.aRefin) s.aPoly s.aWc
      respond (r.setWidth 64) { s with crcReg := r }
    else raise .seq s

/-- CRC.FINAL (40_crc_bitloop.md R107): the session stays open. -/
def execCrcFinal (s : State) : Host.Outcome State Fault Refusal :=
  if s.aActive then
    let out := crcFinal s.crcReg s.aXorout s.aRefout s.aWc
    respond (out.setWidth 64) { s with crcOut := out }
  else raise .seq s

end Sys2Proof.Machine
end

