-- ==== Sys2Proof/Machine/CrcTable.lean ====
section
/-! DEFINITION. The commands of the CRC table unit: CRC.BYTET, TAB.BUILD, TAB.READ (41_crc_table.md R135-R137). -/

namespace Sys2Proof.Machine

/-- CRC.BYTET b (41_crc_table.md R135): the entry is read from the cells, after the table for the session's key is
ensured (R134). -/
def execCrcByteT (opd : Word) (s : State) : Host.Outcome State Fault Refusal :=
  match byteOperand? opd with
  | none => raise .type s
  | some b =>
    if s.aActive then
      let built := ensureTable s.aPoly s.aWc s
      let r := combineEntry s.crcReg (lutCell (tableIndex s.crcReg (crcIn b s.aRefin) s.aWc) built) s.aWc
      respond (r.setWidth 64) { built with crcReg := r }
    else raise .seq s

/-- TAB.BUILD (41_crc_table.md R136). -/
def execTabBuild (s : State) : Host.Outcome State Fault Refusal :=
  if stagedPolyFits s then respond 0#64 (ensureTable s.crcPoly s.crcCtrl.width s) else raise .range s

/-- TAB.READ i (41_crc_table.md R137): the table of the staged configuration. -/
def execTabRead (opd : Word) (s : State) : Host.Outcome State Fault Refusal :=
  match byteOperand? opd with
  | none => raise .type s
  | some i =>
    if stagedPolyFits s then
      let built := ensureTable s.crcPoly s.crcCtrl.width s
      respond ((lutCell i built).setWidth 64) built
    else raise .range s

end Sys2Proof.Machine
end

