-- ==== Sys2Proof/Machine/Fletcher.lean ====
section
/-! DEFINITION. The commands of the Fletcher accumulator: FL.START, FL.BYTE, FL.FINAL (42_fletcher.md R153-R155). -/

namespace Sys2Proof.Machine

/-- FL.START wc, ord (42_fletcher.md R153). -/
def execFlStart (wc : BitVec 2) (ord : Bool) (s : State) : Host.Outcome State Fault Refusal :=
  match Width.ofCode? wc with
  | some w => respond 0#64 (openFletcherSession w ord s)
  | none => raise .illegal s

/-- FL.BYTE b (42_fletcher.md R154): the response carries the sums over whole words. -/
def execFlByte (opd : Word) (s : State) : Host.Outcome State Fault Refusal :=
  match byteOperand? opd with
  | none => raise .type s
  | some b =>
    if s.fActive then
      let taken := takeFletcherByte b s
      respond (packSums taken.fWc taken.flSum2 taken.flSum1) taken
    else raise .seq s

/-- FL.FINAL (42_fletcher.md R155): the session registers are not changed. -/
def execFlFinal (s : State) : Host.Outcome State Fault Refusal :=
  if s.fActive then respond (fletcherResult s) { s with flOut := fletcherResult s } else raise .seq s

end Sys2Proof.Machine
end

