-- ==== Sys2Proof/Machine/Dispatch.lean ====
section
/-! DEFINITION. One arm per command (30_encoding.md R76). -/

namespace Sys2Proof.Machine

def exec (i : Instr) (s : State) : Host.Outcome State Fault Refusal :=
  match i with
  | .nop => Sys2Proof.Machine.execNop s
  | .rd r => Sys2Proof.Machine.execRd r s
  | .wr r imm => Sys2Proof.Machine.execWr r imm s
  | .rst => Sys2Proof.Machine.execRst s
  | .clrerr => Sys2Proof.Machine.execClrerr s
  | .crcPreset p => Sys2Proof.Machine.execCrcPreset p s
  | .crcStart => Sys2Proof.Machine.execCrcStart s
  | .crcByteB opd => Sys2Proof.Machine.execCrcByteB opd s
  | .crcByteT opd => Sys2Proof.Machine.execCrcByteT opd s
  | .crcFinal => Sys2Proof.Machine.execCrcFinal s
  | .tabBuild => Sys2Proof.Machine.execTabBuild s
  | .tabRead opd => Sys2Proof.Machine.execTabRead opd s
  | .flStart wc ord => Sys2Proof.Machine.execFlStart wc ord s
  | .flByte opd => Sys2Proof.Machine.execFlByte opd s
  | .flFinal => Sys2Proof.Machine.execFlFinal s

end Sys2Proof.Machine
end

