-- ==== Sys2Proof/Machine/Step.lean ====
section
/-! DEFINITION. One step of the engine: accept the host's next event and run it to its response (20_memory.md R60);
with none waiting, wait with the state unchanged (60_exceptions.md R217, 70_reset_and_hazards.md R231). -/

namespace Sys2Proof.Machine

def step (s : State) : Host.Outcome State Fault Refusal :=
  match acceptEvent? s with
  | none => .next s
  | some (.powerOnReset, s') => .next (powerOn s')
  | some (.command c, s') =>
    match decode c with
    | .ok i => exec i s'
    | .error _ => raise .illegal s'

/-- The state in which the host's next event is the command word of `nbits` bits `w`: `step` runs exactly that command.
The engine fetches nothing (10_state.md R41), so this is the host handing the word over (assumption log entry 1). -/
def State.withFetchWord (s : State) (nbits w : Nat) : State := offerCommand (tableWord nbits w) s

end Sys2Proof.Machine
end

