-- ==== Sys2Proof/Safety.lean ====
section
/-! DEFINITION. The terms the statements use: the invariants the spec gives the state, the machine-readable opcode
table with the error each word gets from it, the error a command must report in a state (60_exceptions.md R205), what
the hidden table may not influence, and the data bytes of a command stream (40_crc_bitloop.md R108, 42_fletcher.md
R156). A safe run of this engine is one whose every state keeps `State.Inv`; no step faults or refuses. -/

namespace Sys2Proof.Machine

/-! Responses and the state after reset. -/

/-- The response `(OK, data)` (60_exceptions.md R208). -/
abbrev okResponse (data : DWord) : Option Response := some { code := 0#8, data := data }

/-- The response `(code, 0)` of a rejected command, the code as a number (60_exceptions.md R206). -/
abbrev errorResponse (code : BitVec 8) : Option Response := some { code := code, data := 0#64 }

/-- Every row of the table of 10_state.md R44. -/
structure AtReset (s : State) : Prop where
  crcPoly : s.crcPoly = 0x00000007#32
  crcInit : s.crcInit = 0#32
  crcXorout : s.crcXorout = 0#32
  crcCtrl : ctrlWord s.crcCtrl = 0#32
  aActive : s.aActive = false
  aWc : s.aWc.code = 0#2
  aRefin : s.aRefin = false
  aRefout : s.aRefout = false
  aPoly : s.aPoly = 0#32
  aXorout : s.aXorout = 0#32
  crcReg : s.crcReg = 0#32
  crcOut : s.crcOut = 0#32
  fActive : s.fActive = false
  fWc : s.fWc.code = 0#2
  fOrd : s.fOrd = false
  fNpart : s.fNpart = 0#3
  flSum1 : s.flSum1 = 0#32
  flSum2 : s.flSum2 = 0#32
  flPart : s.flPart = 0#32
  flOut : s.flOut = 0#64
  status : s.status = 0#32
  lutValid : s.lutValid = false

/-! Invariants. -/

/-- While a CRC session is open its polynomial, final XOR and register fit its width (10_state.md R25, R26). -/
def CrcSessionFits (s : State) : Prop :=
  s.aActive = true →
    s.aPoly.toNat < 2 ^ s.aWc.bits ∧ s.aXorout.toNat < 2 ^ s.aWc.bits ∧ s.crcReg.toNat < 2 ^ s.aWc.bits

/-- With no CRC session since reset, the session registers and CRC_OUT hold their reset values (10_state.md R25, R27,
R42). -/
def CrcIdleAtReset (s : State) : Prop :=
  s.aActive = false →
    s.aWc = .w8 ∧ s.aRefin = false ∧ s.aRefout = false ∧ s.aPoly = 0#32 ∧ s.aXorout = 0#32 ∧ s.crcReg = 0#32 ∧
      s.crcOut = 0#32

/-- The Fletcher session is in range: both sums below M, fewer bytes than a word, the partial word within its width
(10_state.md R31). -/
def FletcherInRange (s : State) : Prop :=
  s.flSum1.toNat < s.fWc.modulus ∧ s.flSum2.toNat < s.fWc.modulus ∧ s.fNpart.toNat < s.fWc.bytes ∧
    s.flPart.toNat < 2 ^ s.fWc.bits

/-- With no Fletcher session since reset, its registers and FL_OUT hold their reset values (10_state.md R31, R36,
R42). -/
def FletcherIdleAtReset (s : State) : Prop :=
  s.fActive = false →
    s.fWc = .w8 ∧ s.fOrd = false ∧ s.flSum1 = 0#32 ∧ s.flSum2 = 0#32 ∧ s.flPart = 0#32 ∧ s.fNpart = 0#3 ∧
      s.flOut = 0#64

/-- STATUS: the reserved bits [0], [7:5], [31:12] read 0; LAST_ERR is 0 only when no error has been recorded, and
otherwise names an error whose sticky bit is set (10_state.md R37, 60_exceptions.md R207). -/
def StatusLegal (status : Word) : Prop :=
  status &&& 0xFFFFF0E1#32 = 0#32 ∧
    (status = 0#32 ∨ (1 ≤ (lastErr status).toNat ∧ (lastErr status).toNat ≤ 4 ∧
      status.getLsbD (lastErr status).toNat = true))

/-- The table has its 256 cells (10_state.md R38). -/
def LutHas256Cells (s : State) : Prop := s.lut.length = 256

/-- A valid table holds, for the key it names, the value of the table function in every cell (10_state.md R38). -/
def TableCoherent (s : State) : Prop :=
  s.lutValid = true →
    ∃ w : Width, s.lutWc = w.code ∧ s.lutPoly.toNat < 2 ^ w.bits ∧
      ∀ i : Byte, lutCell i s = tableEntry s.lutPoly w i

/-- The last response carries a code of 60_exceptions.md R200, and data only when the code is OK. -/
def ResponseLegal (s : State) : Prop :=
  ∀ r : Response, s.resp = some r → r.code.toNat ≤ 4 ∧ (r.code ≠ 0#8 → r.data = 0#64)

/-- What holds of the engine at every command boundary. -/
structure State.Inv (s : State) : Prop where
  crcSessionFits : CrcSessionFits s
  crcIdleAtReset : CrcIdleAtReset s
  fletcherInRange : FletcherInRange s
  fletcherIdleAtReset : FletcherIdleAtReset s
  statusLegal : StatusLegal s.status
  lutHas256Cells : LutHas256Cells s
  tableCoherent : TableCoherent s
  responseLegal : ResponseLegal s

/-! The opcode table, as spec/opcode_table.json has it. -/

/-- A row: `match`, `must_be_zero_mask`, `type_check_mask` and `extra_legality`; the mask is the same in every row. -/
structure OpcodeRow where
  mnemonic : String
  value : Command
  mustBeZero : Command
  typeCheck : Command
  legal : Command → Bool

/-- The column `mask`. -/
def opcodeMask : Command := 0xFF00000000000000#64

/-- `extra_legality` of WR: F in 0x00-0x03, and for CRC_CTRL a value with OPD[31:4] = 0 and OPD[1:0] not 3. -/
def wrRowLegal (c : Command) : Bool :=
  decide ((fField c).toNat ≤ 3) &&
    (decide ((fField c).toNat ≠ 3) || (decide ((opdField c).toNat < 16) && decide ((opdField c).toNat % 4 ≠ 3)))

/-- The fifteen rows. -/
def opcodeTable : List OpcodeRow := [
  ⟨"NOP", 0x0000000000000000#64, 0x00FFFFFFFFFFFFFF#64, 0#64, fun _ => true⟩,
  ⟨"RD", 0x0100000000000000#64, 0x0000FFFFFFFFFFFF#64, 0#64, fun c => WellFormed.assignedNumber (fField c)⟩,
  ⟨"WR", 0x0200000000000000#64, 0x0000FFFF00000000#64, 0#64, wrRowLegal⟩,
  ⟨"RST", 0x0300000000000000#64, 0x00FFFFFFFFFFFFFF#64, 0#64, fun _ => true⟩,
  ⟨"CLRERR", 0x0400000000000000#64, 0x00FFFFFFFFFFFFFF#64, 0#64, fun _ => true⟩,
  ⟨"CRC.PRESET", 0x1000000000000000#64, 0x0000FFFFFFFFFFFF#64, 0#64, fun c => decide ((fField c).toNat ≤ 2)⟩,
  ⟨"CRC.START", 0x1100000000000000#64, 0x00FFFFFFFFFFFFFF#64, 0#64, fun _ => true⟩,
  ⟨"CRC.BYTEB", 0x1200000000000000#64, 0x00FFFFFF00000000#64, 0x00000000FFFFFF00#64, fun _ => true⟩,
  ⟨"CRC.BYTET", 0x1300000000000000#64, 0x00FFFFFF00000000#64, 0x00000000FFFFFF00#64, fun _ => true⟩,
  ⟨"CRC.FINAL", 0x1400000000000000#64, 0x00FFFFFFFFFFFFFF#64, 0#64, fun _ => true⟩,
  ⟨"TAB.BUILD", 0x1800000000000000#64, 0x00FFFFFFFFFFFFFF#64, 0#64, fun _ => true⟩,
  ⟨"TAB.READ", 0x1900000000000000#64, 0x00FFFFFF00000000#64, 0x00000000FFFFFF00#64, fun _ => true⟩,
  ⟨"FL.START", 0x2000000000000000#64, 0x00F8FFFFFFFFFFFF#64, 0#64, fun c => decide ((fField c).toNat % 4 ≠ 3)⟩,
  ⟨"FL.BYTE", 0x2100000000000000#64, 0x00FFFFFF00000000#64, 0x00000000FFFFFF00#64, fun _ => true⟩,
  ⟨"FL.FINAL", 0x2200000000000000#64, 0x00FFFFFFFFFFFFFF#64, 0#64, fun _ => true⟩]

/-- The row of a word, by its opcode alone (30_encoding.md R76). -/
def rowOf? (c : Command) : Option OpcodeRow := opcodeTable.find? fun row => c &&& opcodeMask == row.value

/-- The error the table gives a word in every state: E_ILLEGAL, then E_TYPE (30_encoding.md R74, R77;
60_exceptions.md R202, R203). -/
def tableError (c : Command) : Option Err :=
  match rowOf? c with
  | none => some .illegal
  | some row =>
    if c &&& row.mustBeZero ≠ 0#64 ∨ row.legal c = false then some .illegal
    else if c &&& row.typeCheck ≠ 0#64 then some .type
    else none

/-- E_SEQ: a data or finalisation command of a unit with no open session (60_exceptions.md R204). -/
def sequenceError (c : Command) (s : State) : Bool :=
  ((opcField c == 0x12 || opcField c == 0x13 || opcField c == 0x14) && !s.aActive) ||
    ((opcField c == 0x21 || opcField c == 0x22) && !s.fActive)

/-- E_RANGE: a staged value at or above `2^w` (60_exceptions.md R201). -/
def rangeError (c : Command) (s : State) : Bool :=
  (opcField c == 0x11 &&
      (decide (2 ^ s.crcCtrl.width.bits ≤ s.crcPoly.toNat) || decide (2 ^ s.crcCtrl.width.bits ≤ s.crcInit.toNat) ||
        decide (2 ^ s.crcCtrl.width.bits ≤ s.crcXorout.toNat))) ||
    ((opcField c == 0x18 || opcField c == 0x19) && decide (2 ^ s.crcCtrl.width.bits ≤ s.crcPoly.toNat))

/-- The one error a command word reports in a state, in the order of 60_exceptions.md R205; none if it succeeds. -/
def expectedError (c : Command) (s : State) : Option Err :=
  match tableError c with
  | some e => some e
  | none => if sequenceError c s then some .seq else if rangeError c s then some .range else none

/-- "check decode: … else raise E_ILLEGAL" of a command rule: a word with this opcode decodes to the command exactly
when RSV is 0 and its F and OPD pass the rule's checks, and is otherwise rejected with E_ILLEGAL, whatever the
state. -/
def DecodesAs (opc : BitVec 8) (fOk : BitVec 8 → Prop) (opdOk : Word → Prop) (i : BitVec 8 → Word → Instr) : Prop :=
  ∀ c : Command, opcField c = opc →
    (rsvField c = 0#16 ∧ fOk (fField c) ∧ opdOk (opdField c) → decode c = .ok (i (fField c) (opdField c))) ∧
      (¬(rsvField c = 0#16 ∧ fOk (fField c) ∧ opdOk (opdField c)) →
        ∀ (s : State) (rest : List HostEvent), s.hostStream = .command c :: rest →
          step s = .next (reject .illegal { s with hostStream := rest }))

/-! What the table cache may not influence. -/

/-- The state without the hidden table and the counter of its free values. -/
def withoutCache (s : State) : State :=
  { s with lutValid := false, lutPoly := 0#32, lutWc := 0#2, lut := [], freeDraws := 0 }

/-- Two states that only differ in the hidden table (10_state.md R38). -/
abbrev SameButCache (s t : State) : Prop := withoutCache s = withoutCache t

/-- Two states with the same Fletcher session (10_state.md R31). -/
structure SameFletcherSession (s t : State) : Prop where
  fActive : s.fActive = t.fActive
  fWc : s.fWc = t.fWc
  fOrd : s.fOrd = t.fOrd
  flSum1 : s.flSum1 = t.flSum1
  flSum2 : s.flSum2 = t.flSum2
  flPart : s.flPart = t.flPart
  fNpart : s.fNpart = t.fNpart

/-- Two states with the same latched CRC parameters (10_state.md R25, all but CRC_REG). -/
structure SameCrcParameters (s t : State) : Prop where
  aActive : s.aActive = t.aActive
  aWc : s.aWc = t.aWc
  aRefin : s.aRefin = t.aRefin
  aRefout : s.aRefout = t.aRefout
  aPoly : s.aPoly = t.aPoly
  aXorout : s.aXorout = t.aXorout

/-- Two states with the same staged configuration (10_state.md R20). -/
structure SameStaged (s t : State) : Prop where
  crcPoly : s.crcPoly = t.crcPoly
  crcInit : s.crcInit = t.crcInit
  crcXorout : s.crcXorout = t.crcXorout
  crcCtrl : s.crcCtrl = t.crcCtrl

/-- Two states with the same hidden table. -/
structure SameTable (s t : State) : Prop where
  lutValid : s.lutValid = t.lutValid
  lutPoly : s.lutPoly = t.lutPoly
  lutWc : s.lutWc = t.lutWc
  lut : s.lut = t.lut

/-! The data of a command stream. -/

/-- A command word that is a CRC.START or an RST. -/
def startsOrResetsCrc (c : Command) : Bool :=
  match decode c with
  | .ok .crcStart => true
  | .ok .rst => true
  | _ => false

/-- A command word that is an FL.START or an RST. -/
def startsOrResetsFletcher (c : Command) : Bool :=
  match decode c with
  | .ok (.flStart _ _) => true
  | .ok .rst => true
  | _ => false

/-- The byte a word feeds to the CRC session, if it is a CRC.BYTEB or CRC.BYTET of a byte. -/
def crcDataByte? (c : Command) : Option Byte :=
  match decode c with
  | .ok (.crcByteB opd) => byteOperand? opd
  | .ok (.crcByteT opd) => byteOperand? opd
  | _ => none

/-- The byte a word feeds to the Fletcher session, if it is an FL.BYTE of a byte. -/
def fletcherDataByte? (c : Command) : Option Byte :=
  match decode c with
  | .ok (.flByte opd) => byteOperand? opd
  | _ => none

/-- The events of a host that sends these command words. -/
def commands (cs : List Command) : List HostEvent := cs.map .command

end Sys2Proof.Machine
end

