-- ==== Sys2Proof/Certificates/Slice0/Obligations.lean ====
section
/-! DEFINITION. The statements for the provers. Each docstring names the rules of spec/ it formalises. -/

open Sys2Proof Sys2Proof.Machine

/-! ## Encoding and decoding -/

/-- 30_encoding.md R71-R74, R76: no operand bit of a well-formed command is lost by its word. -/
def Obligations.DecodeOfEncode : Prop :=
  ∀ i : Instr, i.WellFormed → decode (encode i) = .ok i

/-- 30_encoding.md R75-R78: a word that decodes is exactly the word of its command, and the command is well formed:
no bit of an accepted word is ignored. -/
def Obligations.EncodeOfDecode : Prop :=
  ∀ (c : Command) (i : Instr), decode c = .ok i → encode i = c ∧ i.WellFormed

/-- 30_encoding.md R80: the example words of the table (and `FL.START 64, MSB`), and one word failing each check of
R77. -/
def Obligations.ExampleWordsDecode : Prop :=
  decode 0x0000000000000000#64 = .ok .nop ∧
  decode 0x0105000000000000#64 = .ok (.rd 0x05#8) ∧
  decode 0x0200000000001021#64 = .ok (.wr 0x00#8 0x1021#32) ∧
  decode 0x0300000000000000#64 = .ok .rst ∧
  decode 0x0400000000000000#64 = .ok .clrerr ∧
  decode 0x1002000000000000#64 = .ok (.crcPreset 2#8) ∧
  decode 0x1100000000000000#64 = .ok .crcStart ∧
  decode 0x1200000000000031#64 = .ok (.crcByteB 0x31#32) ∧
  decode 0x1300000000000031#64 = .ok (.crcByteT 0x31#32) ∧
  decode 0x1400000000000000#64 = .ok .crcFinal ∧
  decode 0x1800000000000000#64 = .ok .tabBuild ∧
  decode 0x1900000000000080#64 = .ok (.tabRead 0x80#32) ∧
  decode 0x2001000000000000#64 = .ok (.flStart 1#2 false) ∧
  decode 0x2006000000000000#64 = .ok (.flStart 2#2 true) ∧
  decode 0x2100000000000061#64 = .ok (.flByte 0x61#32) ∧
  decode 0x2200000000000000#64 = .ok .flFinal ∧
  decode 0x0500000000000000#64 = .error .opcode ∧
  decode 0x0000000100000000#64 = .error .reserved ∧
  decode 0x0109000000000000#64 = .error .function ∧
  decode 0x1400000000000001#64 = .error .operand

/-- spec/opcode_table.json: at most one row matches a word, so the opcode alone selects the command. -/
def Obligations.OpcodeRowsNeverOverlap : Prop :=
  ∀ (c : Command) (a b : OpcodeRow), a ∈ opcodeTable → b ∈ opcodeTable →
    c &&& opcodeMask = a.value → c &&& opcodeMask = b.value → a.mnemonic = b.mnemonic

/-! ## Errors -/

/-- 60_exceptions.md R201-R206 and 30_encoding.md R74, R77: in every state a command word raises exactly the error
the rules name, the first in the order E_ILLEGAL, E_TYPE, E_SEQ, E_RANGE, and otherwise succeeds; the words are judged
by the masks of spec/opcode_table.json. -/
def Obligations.EachCommandReportsItsFirstError : Prop :=
  ∀ (c : Command) (s : State) (rest : List HostEvent), s.hostStream = .command c :: rest →
    (∀ e : Err, expectedError c s = some e → step s = .next (reject e { s with hostStream := rest })) ∧
    (expectedError c s = none → ∃ (t : State) (d : DWord), step s = .next t ∧ t.resp = okResponse d)

/-- 60_exceptions.md R206: a command whose response carries an error code changed nothing but STATUS, and its data is
0; the engine takes the next command. -/
def Obligations.RejectedCommandChangesOnlyStatus : Prop :=
  ∀ (c : Command) (s t : State) (rest : List HostEvent) (r : Response), s.hostStream = .command c :: rest →
    step s = .next t → t.resp = some r → r.code ≠ 0#8 →
      r.data = 0#64 ∧ t = { s with hostStream := rest, status := t.status, resp := t.resp }

/-- 60_exceptions.md R207: what each bit of STATUS holds after a command that responds with an error code; its example;
and that success leaves STATUS alone but for RST and CLRERR, which clear it. -/
def Obligations.RaisedErrorIsRecordedInStatus : Prop :=
  (∀ (c : Command) (s t : State) (rest : List HostEvent) (r : Response) (k : Nat), s.hostStream = .command c :: rest →
    step s = .next t → t.resp = some r → r.code ≠ 0#8 → k < 32 →
      t.status.getLsbD k =
        if k = r.code.toNat then true else if 8 ≤ k ∧ k ≤ 11 then r.code.getLsbD (k - 8) else s.status.getLsbD k) ∧
  (∀ s : State, s.status = 0#32 → (reject .range (reject .seq s)).status = 0x112#32) ∧
  (∀ (i : Instr) (s t : State) (d : DWord), exec i s = .next t → t.resp = okResponse d →
    t.status = if i = .rst ∨ i = .clrerr then 0#32 else s.status)

/-! ## The step -/

/-- 20_memory.md R60: when the host's next word decodes to a command, the step runs that command on the state whose
stream has moved past the word. The second clause is the model's choice (assumption log entry 1): a word handed over by
`withFetchWord` stands at the head of the stream, so the very next step runs it. -/
def Obligations.StepRunsTheDecodedCommand : Prop :=
  (∀ (c : Command) (i : Instr) (s : State) (rest : List HostEvent), s.hostStream = .command c :: rest →
    decode c = .ok i → step s = exec i { s with hostStream := rest }) ∧
  (∀ (s : State) (nbits w : Nat) (i : Instr), decodeTableWord nbits w = some i →
    step (s.withFetchWord nbits w) = exec i s)

/-- 60_exceptions.md R217, 70_reset_and_hazards.md R231: with no event waiting the engine holds its state unchanged; that
this is a step is the model's choice (assumption log entry 11). -/
def Obligations.StepWaitsWithNoCommand : Prop :=
  ∀ s : State, s.hostStream = [] → step s = .next s

/-- 60_exceptions.md R208 and 70_reset_and_hazards.md R237: the engine never stops, takes one event a step, and gives
every command, legal or not, exactly one response, with a code of R200 and data 0 unless the code is OK. Three choices of
the model stand in it: that a command sent is always answered, where R230 lets a power-on reset lose one inside it
(assumption log entry 7, unsafe); that a step with no event answers a next state (log entry 11); and that the response
stands in the state (log entry 2). -/
def Obligations.EveryCommandGetsOneResponse : Prop :=
  ∀ s : State, ∃ t : State, step s = .next t ∧ t.hostStream = s.hostStream.tail ∧
    ∀ (c : Command) (rest : List HostEvent), s.hostStream = .command c :: rest →
      ∃ r : Response, t.resp = some r ∧ r.code.toNat ≤ 4 ∧ (r.code ≠ 0#8 → r.data = 0#64)

/-- 70_reset_and_hazards.md R230: a power-on reset leaves the reset values, an invalid table and no response, and has
the same effect as RST on everything 10_state.md R44 gives a value. That it is an event at a command boundary and
empties the response port are choices of the model (assumption log entries 7 and 2). -/
def Obligations.PowerOnResetsTheEngine : Prop :=
  ∀ (s : State) (rest : List HostEvent), s.hostStream = .powerOnReset :: rest →
    ∃ t u : State, step s = .next t ∧ AtReset t ∧ t.hostStream = rest ∧ t.resp = none ∧
      exec .rst { s with hostStream := rest } = .next u ∧ SameButCache { u with resp := none } t

/-! ## Reset and invariants -/

/-- 10_state.md R44: the reset values, at power-on and after RST; in every state that holds them the staged
configuration is that of CRC.PRESET 0, CRC.START begins a CRC-8 computation with its defaults, and every data or
finalisation command raises E_SEQ. -/
def Obligations.ResetStateIsTheTable : Prop :=
  AtReset State.reset ∧
  (∀ s t : State, exec .rst s = .next t → AtReset t) ∧
  (∀ (s t : State) (rest : List HostEvent), s.hostStream = .powerOnReset :: rest → step s = .next t → AtReset t) ∧
  (∀ s : State, AtReset s →
    exec (.crcPreset 0#8) s = .next { s with resp := okResponse 0#64 } ∧
    exec .crcStart s = .next { s with aActive := true, aPoly := 0x07#32, resp := okResponse 0#64 } ∧
    (∀ b : Byte, exec (.crcByteB (b.setWidth 32)) s = .next (reject .seq s)) ∧
    (∀ b : Byte, exec (.crcByteT (b.setWidth 32)) s = .next (reject .seq s)) ∧
    exec .crcFinal s = .next (reject .seq s) ∧
    (∀ b : Byte, exec (.flByte (b.setWidth 32)) s = .next (reject .seq s)) ∧
    exec .flFinal s = .next (reject .seq s))

/-- The invariants of 10_state.md R25, R26, R31, R37, R38 hold in the reset state. -/
def Obligations.ResetStateMeetsTheInvariants : Prop :=
  State.reset.Inv

/-- The invariants of 10_state.md R25, R26, R31, R37, R38 and the response codes of 60_exceptions.md R200 are kept by
every step from every state that meets them, whatever the host sends. -/
def Obligations.EveryStepKeepsTheInvariants : Prop :=
  ∀ s t : State, s.Inv → step s = .next t → t.Inv

/-! ## Functions of the CRC units -/

/-- 00_scope.md R10: bit i of a reflected value is bit 7-i, and bit w-1-i. -/
def Obligations.ReflectionReversesBits : Prop :=
  (∀ (b : Byte) (i : Nat), i ≤ 7 → (reflect8 b).getLsbD i = b.getLsbD (7 - i)) ∧
  (∀ (v : Word) (w : Width) (i : Nat), i < w.bits → (reflectW v w).getLsbD i = v.getLsbD (w.bits - 1 - i)) ∧
  (∀ (v : Word) (w : Width), (reflectW v w).toNat < 2 ^ w.bits)

/-- The shift loop of 40_crc_bitloop.md R100 in the document's wording: no mask inside, on unbounded numbers. -/
def Obligations.MaskAfterTheEighthShiftSuffices : Prop :=
  ∀ (w : Width) (poly : Word) (r : Word) (k : Nat), poly.toNat < 2 ^ w.bits → r.toNat < 2 ^ w.bits →
    (crcShifts poly w k r).toNat =
      ((fun u : Nat => if u.testBit (w.bits - 1) then (2 * u) ^^^ poly.toNat else 2 * u)^[k] r.toNat) % 2 ^ w.bits

/-- 40_crc_bitloop.md R103: the XOR comes before the reflection; this equals reflecting first and XORing with the
reflected value; the plain other order agrees exactly when the value is its own reflection, as in the three presets. -/
def Obligations.FinalXorComesBeforeReflection : Prop :=
  (∀ (r x : Word) (w : Width), r.toNat < 2 ^ w.bits → x.toNat < 2 ^ w.bits →
    crcFinal r x false w = r ^^^ x ∧
    crcFinal r x true w = reflectW (r ^^^ x) w ∧
    crcFinal r x true w = reflectW r w ^^^ reflectW x w) ∧
  (∀ (x : Word) (w : Width), x.toNat < 2 ^ w.bits →
    ((∀ r : Word, r.toNat < 2 ^ w.bits → crcFinal r x true w = reflectW r w ^^^ x) ↔ reflectW x w = x)) ∧
  (∀ (p : BitVec 8) (poly init xorout : Word) (ctrl : CrcCtrl),
    presetOfNumber? p = some (poly, init, xorout, ctrl) → reflectW xorout ctrl.width = xorout)

/-- 41_crc_table.md R131: the table is linear, so the XOR chain over the eight basis entries gives every entry. -/
def Obligations.TableIsLinear : Prop :=
  ∀ (poly : Word) (w : Width), poly.toNat < 2 ^ w.bits →
    tableEntry poly w 0#8 = 0#32 ∧ tableEntry poly w 1#8 = poly ∧
    (∀ a b : Byte, tableEntry poly w (a ^^^ b) = tableEntry poly w a ^^^ tableEntry poly w b) ∧
    (∀ i : Byte, tableEntry poly w i =
      (List.range 8).foldl (fun v k => if i.getLsbD k then v ^^^ tableEntry poly w (1#8 <<< k) else v) 0#32)

/-- 41_crc_table.md R133: the table step and the eight-shift step are the same function of the register, the byte, the
polynomial and the width; so bytes fed through either step, each as its own flag chooses, give the
whole-buffer CRC of the shift register. -/
def Obligations.TableStepEqualsShiftStep : Prop :=
  (∀ (w : Width) (poly r : Word) (b : Byte), poly.toNat < 2 ^ w.bits → r.toNat < 2 ^ w.bits →
    crcStepT r b poly w = crcShift8 r b poly w) ∧
  (∀ (d : List (Byte × Bool)) (w : Width) (poly init xorout : Word) (refin refout : Bool),
    poly.toNat < 2 ^ w.bits → init.toNat < 2 ^ w.bits →
      crcFinal (d.foldl (fun r x => if x.2 then crcStepT r (crcIn x.1 refin) poly w
        else crcShift8 r (crcIn x.1 refin) poly w) init) xorout refout w =
          crc (d.map (·.1)) poly init refin refout xorout w)

/-- 41_crc_table.md R133 as commands: in a state that meets the invariants CRC.BYTET and CRC.BYTEB leave the same
state and give the same response, but for the hidden table. -/
def Obligations.BytetAndBytebAreInterchangeable : Prop :=
  ∀ (opd : Word) (s : State), CrcSessionFits s → TableCoherent s →
    ∃ t u : State, exec (.crcByteT opd) s = .next t ∧ exec (.crcByteB opd) s = .next u ∧ SameButCache t u

/-- 41_crc_table.md R141: an entry fits the width, and TAB.READ returns it zero-extended. -/
def Obligations.TableEntriesFitTheWidth : Prop :=
  (∀ (poly : Word) (w : Width) (i : Byte), poly.toNat < 2 ^ w.bits → (tableEntry poly w i).toNat < 2 ^ w.bits) ∧
  (∀ (i : Byte) (s : State), TableCoherent s → s.crcPoly.toNat < 2 ^ s.crcCtrl.width.bits →
    ∃ t : State, exec (.tabRead (i.setWidth 32)) s = .next t ∧ lutCell i t = tableEntry s.crcPoly s.crcCtrl.width i ∧
      t.resp = okResponse ((tableEntry s.crcPoly s.crcCtrl.width i).setWidth 64))

/-- 40_crc_bitloop.md R112: with polynomial 0 a step is a plain shift by 8, so the register is 0 after w/8 bytes,
whatever the bytes and the start; no width-fitting value is refused by CRC.START. -/
def Obligations.PolynomialZeroClearsTheRegister : Prop :=
  (∀ (w : Width) (r : Word) (b : Byte), r.toNat < 2 ^ w.bits → crcShift8 r b 0#32 w = (r <<< 8) &&& w.mask) ∧
  (∀ (w : Width) (init : Word) (refin : Bool) (d : List Byte), init.toNat < 2 ^ w.bits → d.length = w.bits / 8 →
    crcFold d 0#32 init refin w = 0#32)

/-- 40_crc_bitloop.md R110: the three reference values, with the presets of R104 and the ASCII bytes of
"123456789". -/
def Obligations.ReferenceValuesHold : Prop :=
  ∀ d : List Byte, d = [0x31#8, 0x32#8, 0x33#8, 0x34#8, 0x35#8, 0x36#8, 0x37#8, 0x38#8, 0x39#8] →
    crc d 0x07#32 0#32 false false 0#32 .w8 = 0xF4#32 ∧
    crc d 0x1021#32 0xFFFF#32 false false 0#32 .w16 = 0x29B1#32 ∧
    crc d 0x04C11DB7#32 0xFFFFFFFF#32 true true 0xFFFFFFFF#32 .w32 = 0xCBF43926#32

/-! ## Engine control commands -/

/-- 43_engine_control.md R170. -/
def Obligations.NopDoesNothing : Prop :=
  DecodesAs 0x00 (· = 0#8) (· = 0#32) (fun _ _ => .nop) ∧
  decode 0x0000000000000000#64 = .ok .nop ∧
  (∀ s : State, exec .nop s = .next { s with resp := okResponse 0#64 })

/-- 43_engine_control.md R171 with the register map of 10_state.md R39: the value of every assigned number, E_ILLEGAL
for every other, and no side effect. -/
def Obligations.RdRespondsWithTheRegister : Prop :=
  DecodesAs 0x01 (fun f => f.toNat ≤ 0x08 ∨ (0x10 ≤ f.toNat ∧ f.toNat ≤ 0x14) ∨ f.toNat = 0x1F) (· = 0#32)
    (fun f _ => .rd f) ∧
  (∀ s : State,
    exec (.rd 0x00#8) s = .next { s with resp := okResponse (s.crcPoly.setWidth 64) } ∧
    exec (.rd 0x01#8) s = .next { s with resp := okResponse (s.crcInit.setWidth 64) } ∧
    exec (.rd 0x02#8) s = .next { s with resp := okResponse (s.crcXorout.setWidth 64) } ∧
    exec (.rd 0x03#8) s = .next { s with resp := okResponse ((ctrlWord s.crcCtrl).setWidth 64) } ∧
    exec (.rd 0x04#8) s = .next { s with resp := okResponse (s.crcReg.setWidth 64) } ∧
    exec (.rd 0x05#8) s = .next { s with resp := okResponse (s.crcOut.setWidth 64) } ∧
    exec (.rd 0x06#8) s = .next { s with resp := okResponse ((crcAstat s).setWidth 64) } ∧
    exec (.rd 0x07#8) s = .next { s with resp := okResponse (s.aPoly.setWidth 64) } ∧
    exec (.rd 0x08#8) s = .next { s with resp := okResponse (s.aXorout.setWidth 64) } ∧
    exec (.rd 0x10#8) s = .next { s with resp := okResponse (s.flSum1.setWidth 64) } ∧
    exec (.rd 0x11#8) s = .next { s with resp := okResponse (s.flSum2.setWidth 64) } ∧
    exec (.rd 0x12#8) s = .next { s with resp := okResponse (s.flPart.setWidth 64) } ∧
    exec (.rd 0x13#8) s = .next { s with resp := okResponse ((flStat s).setWidth 64) } ∧
    exec (.rd 0x14#8) s = .next { s with resp := okResponse s.flOut } ∧
    exec (.rd 0x1F#8) s = .next { s with resp := okResponse (s.status.setWidth 64) }) ∧
  (∀ (r : BitVec 8) (s : State),
    ¬(r.toNat ≤ 0x08 ∨ (0x10 ≤ r.toNat ∧ r.toNat ≤ 0x14) ∨ r.toNat = 0x1F) →
      exec (.rd r) s = .next (reject .illegal s)) ∧
  (decode 0x0105000000000000#64 = .ok (.rd 0x05#8) ∧ ∀ s : State, s.crcOut = 0xF4#32 →
    exec (.rd 0x05#8) s = .next { s with resp := okResponse 0xF4#64 })

/-- 10_state.md R24, R28, R35: the bits of the three registers that are words of fields. -/
def Obligations.FieldRegistersShowTheirFields : Prop :=
  ∀ (s : State) (k : Nat), k < 32 →
    (ctrlWord s.crcCtrl).getLsbD k =
      (if k < 2 then s.crcCtrl.width.code.getLsbD k else if k = 2 then s.crcCtrl.refin
        else if k = 3 then s.crcCtrl.refout else false) ∧
    (crcAstat s).getLsbD k =
      (if k < 2 then s.aWc.code.getLsbD k else if k = 2 then s.aRefin else if k = 3 then s.aRefout
        else if k = 31 then s.aActive else false) ∧
    (flStat s).getLsbD k =
      (if k < 2 then s.fWc.code.getLsbD k else if k = 2 then s.fOrd
        else if 4 ≤ k ∧ k ≤ 6 then s.fNpart.getLsbD (k - 4) else if k = 31 then s.fActive else false)

/-- 43_engine_control.md R172. -/
def Obligations.WrWritesAStagedRegister : Prop :=
  DecodesAs 0x02 (fun f => f.toNat ≤ 0x03) (fun _ => True) (fun f d => .wr f d) ∧
  (∀ (v : Word) (s : State),
    exec (.wr 0x00#8 v) s = .next { s with crcPoly := v, resp := okResponse 0#64 } ∧
    exec (.wr 0x01#8 v) s = .next { s with crcInit := v, resp := okResponse 0#64 } ∧
    exec (.wr 0x02#8 v) s = .next { s with crcXorout := v, resp := okResponse 0#64 } ∧
    (v.toNat < 16 ∧ v.toNat % 4 ≠ 3 →
      ∃ c : CrcCtrl, ctrlWord c = v ∧ exec (.wr 0x03#8 v) s = .next { s with crcCtrl := c, resp := okResponse 0#64 }) ∧
    (¬(v.toNat < 16 ∧ v.toNat % 4 ≠ 3) → exec (.wr 0x03#8 v) s = .next (reject .illegal s))) ∧
  (∀ (r : BitVec 8) (v : Word) (s : State), 0x03 < r.toNat → exec (.wr r v) s = .next (reject .illegal s)) ∧
  decode 0x0200000000001021#64 = .ok (.wr 0x00#8 0x1021#32)

/-- 43_engine_control.md R173: every value of 10_state.md R44, the table invalid, and the response (OK, 0); a following
RD CRC_POLY responds 7; a power-on reset has the same effect. The last clause compares the two but for the hidden table,
whose cells and key no rule gives after a reset (assumption log entry 3), and rests on two choices of the model: the
power-on reset is an event at a command boundary (log entry 7), and it leaves the response port empty (log entry 2). -/
def Obligations.RstResetsTheEngine : Prop :=
  DecodesAs 0x03 (· = 0#8) (· = 0#32) (fun _ _ => .rst) ∧
  (∀ s : State, ∃ t : State, exec .rst s = .next t ∧ AtReset t ∧ t.resp = okResponse 0#64 ∧
    t.hostStream = s.hostStream ∧ exec (.rd 0x00#8) t = .next { t with resp := okResponse 7#64 } ∧
    ∀ u : State, step { s with hostStream := .powerOnReset :: s.hostStream } = .next u →
      AtReset u ∧ SameButCache u { t with resp := none })

/-- 43_engine_control.md R174. -/
def Obligations.ClrerrClearsStatus : Prop :=
  DecodesAs 0x04 (· = 0#8) (· = 0#32) (fun _ _ => .clrerr) ∧
  (∀ s : State, exec .clrerr s = .next { s with status := 0#32, resp := okResponse 0#64 }) ∧
  (∀ s : State, lastErr (reject .illegal s).status = 3#4 ∧ (reject .illegal s).status.getLsbD 3 = true)

/-! ## CRC commands -/

/-- 40_crc_bitloop.md R104. -/
def Obligations.CrcPresetLoadsTheDefaults : Prop :=
  DecodesAs 0x10 (fun f => f.toNat ≤ 2) (· = 0#32) (fun f _ => .crcPreset f) ∧
  (∀ s : State,
    (∃ c : CrcCtrl, ctrlWord c = 0x0#32 ∧ exec (.crcPreset 0#8) s =
      .next { s with crcPoly := 0x00000007#32, crcInit := 0x00000000#32, crcXorout := 0x00000000#32, crcCtrl := c,
                     resp := okResponse 0#64 }) ∧
    (∃ c : CrcCtrl, ctrlWord c = 0x1#32 ∧ exec (.crcPreset 1#8) s =
      .next { s with crcPoly := 0x00001021#32, crcInit := 0x0000FFFF#32, crcXorout := 0x00000000#32, crcCtrl := c,
                     resp := okResponse 0#64 }) ∧
    (∃ c : CrcCtrl, ctrlWord c = 0xE#32 ∧ exec (.crcPreset 2#8) s =
      .next { s with crcPoly := 0x04C11DB7#32, crcInit := 0xFFFFFFFF#32, crcXorout := 0xFFFFFFFF#32, crcCtrl := c,
                     resp := okResponse 0#64 })) ∧
  (∀ (p : BitVec 8) (s : State), 2 < p.toNat → exec (.crcPreset p) s = .next (reject .illegal s)) ∧
  decode 0x1001000000000000#64 = .ok (.crcPreset 1#8)

/-- 40_crc_bitloop.md R105: the range check, the latch of the staged configuration, the response; an open session
survives an E_RANGE and is replaced by a successful START; the example after CRC.PRESET CRC32. -/
def Obligations.CrcStartLatchesTheConfiguration : Prop :=
  DecodesAs 0x11 (· = 0#8) (· = 0#32) (fun _ _ => .crcStart) ∧
  (∀ s : State,
    s.crcPoly.toNat < 2 ^ s.crcCtrl.width.bits ∧ s.crcInit.toNat < 2 ^ s.crcCtrl.width.bits ∧
        s.crcXorout.toNat < 2 ^ s.crcCtrl.width.bits →
      exec .crcStart s =
        .next { s with aWc := s.crcCtrl.width, aRefin := s.crcCtrl.refin, aRefout := s.crcCtrl.refout,
                       aPoly := s.crcPoly, aXorout := s.crcXorout, crcReg := s.crcInit, aActive := true,
                       resp := okResponse (s.crcInit.setWidth 64) }) ∧
  (∀ s : State,
    2 ^ s.crcCtrl.width.bits ≤ s.crcPoly.toNat ∨ 2 ^ s.crcCtrl.width.bits ≤ s.crcInit.toNat ∨
        2 ^ s.crcCtrl.width.bits ≤ s.crcXorout.toNat →
      exec .crcStart s = .next (reject .range s)) ∧
  (∀ s : State, ∃ t u : State, exec (.crcPreset 2#8) s = .next t ∧ exec .crcStart t = .next u ∧
    u.resp = okResponse 0xFFFFFFFF#64) ∧
  decode 0x1100000000000000#64 = .ok .crcStart

/-- 40_crc_bitloop.md R106: E_TYPE, then E_SEQ, then eight shifts of the conditioned byte; the corner cases (width 8,
polynomial 0, byte 0 into register 0); the example of the CRC-8 session. -/
def Obligations.CrcBytebShiftsInOneByte : Prop :=
  DecodesAs 0x12 (· = 0#8) (fun _ => True) (fun _ d => .crcByteB d) ∧
  (∀ (opd : Word) (s : State), 256 ≤ opd.toNat → exec (.crcByteB opd) s = .next (reject .type s)) ∧
  (∀ (b : Byte) (s : State), s.aActive = false → exec (.crcByteB (b.setWidth 32)) s = .next (reject .seq s)) ∧
  (∀ (b : Byte) (s : State) (r : Word), s.aActive = true →
    r = crcShift8 s.crcReg (if s.aRefin then reflect8 b else b) s.aPoly s.aWc →
      exec (.crcByteB (b.setWidth 32)) s = .next { s with crcReg := r, resp := okResponse (r.setWidth 64) }) ∧
  (∀ (r poly : Word) (b : Byte), crcShift8 r b poly .w8 = crcShifts poly .w8 8 (r ^^^ b.setWidth 32)) ∧
  (∀ (r : Word) (b : Byte) (w : Width), r.toNat < 2 ^ w.bits → crcShift8 r b 0#32 w = (r <<< 8) &&& w.mask) ∧
  (∀ (poly : Word) (w : Width), crcShift8 0#32 0#8 poly w = 0#32) ∧
  (decode 0x1200000000000031#64 = .ok (.crcByteB 0x31#32) ∧
    ∀ s : State, s.aActive = true → s.aWc = .w8 → s.aPoly = 0x07#32 → s.aRefin = false → s.crcReg = 0x00#32 →
      exec (.crcByteB 0x31#32) s = .next { s with crcReg := 0x97#32, resp := okResponse 0x97#64 })

/-- 40_crc_bitloop.md R107: E_SEQ without a session; CRC_OUT and the response; the session stays open and a second
CRC.FINAL gives the same; the example of the CRC-16/CCITT-FALSE session. -/
def Obligations.CrcFinalFinalisesWithoutClosing : Prop :=
  DecodesAs 0x14 (· = 0#8) (· = 0#32) (fun _ _ => .crcFinal) ∧
  (∀ s : State, s.aActive = false → exec .crcFinal s = .next (reject .seq s)) ∧
  (∀ (s : State) (out : Word), s.aActive = true → out = crcFinal s.crcReg s.aXorout s.aRefout s.aWc →
    exec .crcFinal s = .next { s with crcOut := out, resp := okResponse (out.setWidth 64) } ∧
    exec .crcFinal { s with crcOut := out, resp := okResponse (out.setWidth 64) } =
      .next { s with crcOut := out, resp := okResponse (out.setWidth 64) }) ∧
  (∀ s : State, s.aActive = true → s.aWc = .w16 → s.aXorout = 0#32 → s.aRefout = false → s.crcReg = 0x29B1#32 →
    exec .crcFinal s = .next { s with crcOut := 0x29B1#32, resp := okResponse 0x29B1#64 })

/-- 41_crc_table.md R135, with the table cache coherent (10_state.md R38): E_TYPE, then E_SEQ, then the table step;
afterwards the cache holds the session's table; the example of the CRC-32 session. -/
def Obligations.CrcBytetStepsThroughTheTable : Prop :=
  DecodesAs 0x13 (· = 0#8) (fun _ => True) (fun _ d => .crcByteT d) ∧
  (∀ (opd : Word) (s : State), 256 ≤ opd.toNat → exec (.crcByteT opd) s = .next (reject .type s)) ∧
  (∀ (b : Byte) (s : State), s.aActive = false → exec (.crcByteT (b.setWidth 32)) s = .next (reject .seq s)) ∧
  (∀ (b : Byte) (s : State) (r : Word), TableCoherent s → s.aActive = true →
    r = ((s.crcReg <<< 8) &&& s.aWc.mask) ^^^
        tableEntry s.aPoly s.aWc
          ((s.crcReg >>> (s.aWc.bits - 8)).setWidth 8 ^^^ (if s.aRefin then reflect8 b else b)) →
      ∃ cells : List Word,
        exec (.crcByteT (b.setWidth 32)) s =
          .next { s with crcReg := r, resp := okResponse (r.setWidth 64), lutValid := true, lutPoly := s.aPoly,
                         lutWc := s.aWc.code, lut := cells } ∧
        ∀ i : Byte, cells.getD i.toNat 0#32 = tableEntry s.aPoly s.aWc i) ∧
  (∀ s : State, TableCoherent s → s.aActive = true → s.aWc = .w32 → s.aPoly = 0x04C11DB7#32 → s.aRefin = true →
    s.crcReg = 0xFFFFFFFF#32 →
      ∃ t : State, exec (.crcByteT 0x31#32) s = .next t ∧ t.crcReg = 0x1208C43E#32 ∧
        t.resp = okResponse 0x1208C43E#64)

/-- 41_crc_table.md R136, with the table cache coherent (10_state.md R38): E_RANGE, or the staged key's table in the
cache and no other change. -/
def Obligations.TabBuildChangesOnlyTheCache : Prop :=
  DecodesAs 0x18 (· = 0#8) (· = 0#32) (fun _ _ => .tabBuild) ∧
  (∀ s : State, 2 ^ s.crcCtrl.width.bits ≤ s.crcPoly.toNat → exec .tabBuild s = .next (reject .range s)) ∧
  (∀ s : State, TableCoherent s → s.crcPoly.toNat < 2 ^ s.crcCtrl.width.bits →
    ∃ cells : List Word,
      exec .tabBuild s =
        .next { s with resp := okResponse 0#64, lutValid := true, lutPoly := s.crcPoly, lutWc := s.crcCtrl.width.code,
                       lut := cells } ∧
      ∀ i : Byte, cells.getD i.toNat 0#32 = tableEntry s.crcPoly s.crcCtrl.width i) ∧
  (∀ s : State, ∃ t u : State, exec (.crcPreset 2#8) s = .next t ∧ exec .tabBuild t = .next u ∧
    u.resp = okResponse 0#64)

/-- 41_crc_table.md R137, with the table cache coherent (10_state.md R38): E_TYPE, then E_RANGE, then the entry of the
staged configuration; entries 0 and 1; the example after CRC.PRESET CRC32. -/
def Obligations.TabReadRespondsWithTheEntry : Prop :=
  DecodesAs 0x19 (· = 0#8) (fun _ => True) (fun _ d => .tabRead d) ∧
  (∀ (opd : Word) (s : State), 256 ≤ opd.toNat → exec (.tabRead opd) s = .next (reject .type s)) ∧
  (∀ (i : Byte) (s : State), 2 ^ s.crcCtrl.width.bits ≤ s.crcPoly.toNat →
    exec (.tabRead (i.setWidth 32)) s = .next (reject .range s)) ∧
  (∀ (i : Byte) (s : State), TableCoherent s → s.crcPoly.toNat < 2 ^ s.crcCtrl.width.bits →
    ∃ cells : List Word,
      exec (.tabRead (i.setWidth 32)) s =
        .next { s with resp := okResponse ((tableEntry s.crcPoly s.crcCtrl.width i).setWidth 64), lutValid := true,
                       lutPoly := s.crcPoly, lutWc := s.crcCtrl.width.code, lut := cells } ∧
      ∀ j : Byte, cells.getD j.toNat 0#32 = tableEntry s.crcPoly s.crcCtrl.width j) ∧
  (∀ s : State, TableCoherent s → s.crcPoly.toNat < 2 ^ s.crcCtrl.width.bits →
    ∃ t u : State, exec (.tabRead 0#32) s = .next t ∧ t.resp = okResponse 0#64 ∧
      exec (.tabRead 1#32) s = .next u ∧ u.resp = okResponse (s.crcPoly.setWidth 64)) ∧
  (∀ s : State, TableCoherent s →
    ∃ t u : State, exec (.crcPreset 2#8) s = .next t ∧ exec (.tabRead 0x80#32) t = .next u ∧
      u.resp = okResponse 0x690CE0EE#64)

/-! ## Fletcher commands -/

/-- 42_fletcher.md R151: the sum is exact before the modulus, stays below it, and a word equal to M adds nothing. -/
def Obligations.ModularSumIsExact : Prop :=
  (∀ (w : Width) (a x : Word), a.toNat < 2 ^ w.bits - 1 → x.toNat < 2 ^ w.bits →
    (addM w a x).toNat = (a.toNat + x.toNat) % (2 ^ w.bits - 1) ∧ (addM w a x).toNat < 2 ^ w.bits - 1) ∧
  (∀ (w : Width) (a m : Word), a.toNat < 2 ^ w.bits - 1 → m.toNat = 2 ^ w.bits - 1 → addM w a m = a)

/-- 42_fletcher.md R152: a whole word assembled byte by byte is the little-endian number of its bytes when F_ORD is 0
and the big-endian number when it is 1; the order does not matter for one byte. -/
def Obligations.WordAssemblyFollowsTheByteOrder : Prop :=
  (∀ (w : Width) (d : List Byte), d.length = w.bytes →
    (wordOfGroup w false d 0).toNat = d.foldr (fun b n => b.toNat + 256 * n) 0 ∧
    (wordOfGroup w true d 0).toNat = d.foldl (fun n b => 256 * n + b.toNat) 0) ∧
  (∀ b : Byte, wordOfGroup .w8 false [b] 0 = wordOfGroup .w8 true [b] 0)

/-- 42_fletcher.md R153. -/
def Obligations.FlStartOpensASession : Prop :=
  DecodesAs 0x20 (fun f => f.toNat < 8 ∧ f.toNat % 4 ≠ 3) (· = 0#32)
    (fun f _ => .flStart (f.extractLsb' 0 2) (f.getLsbD 2)) ∧
  (∀ (w : Width) (ord : Bool) (s : State),
    exec (.flStart w.code ord) s =
      .next { s with fWc := w, fOrd := ord, flSum1 := 0#32, flSum2 := 0#32, flPart := 0#32, fNpart := 0#3,
                     fActive := true, resp := okResponse 0#64 }) ∧
  (∀ (ord : Bool) (s : State), exec (.flStart 3#2 ord) s = .next (reject .illegal s)) ∧
  decode 0x2001000000000000#64 = .ok (.flStart Width.w16.code false)

/-- 42_fletcher.md R154: E_TYPE, then E_SEQ, then the byte at its place; a completed word goes into both sums; an
all-ones word; the example of the Fletcher-32 session. -/
def Obligations.FlByteAccumulatesOneByte : Prop :=
  DecodesAs 0x21 (· = 0#8) (fun _ => True) (fun _ d => .flByte d) ∧
  (∀ (opd : Word) (s : State), 256 ≤ opd.toNat → exec (.flByte opd) s = .next (reject .type s)) ∧
  (∀ (b : Byte) (s : State), s.fActive = false → exec (.flByte (b.setWidth 32)) s = .next (reject .seq s)) ∧
  (∀ (b : Byte) (s : State) (p n : Nat) (part sum1 sum2 : Word), s.fActive = true → FletcherInRange s →
    n = s.fWc.bits / 8 → p = (if s.fOrd then n - 1 - s.fNpart.toNat else s.fNpart.toNat) →
    part = s.flPart ||| b.setWidth 32 <<< (8 * p) →
    sum1.toNat = (s.flSum1.toNat + part.toNat) % (2 ^ s.fWc.bits - 1) →
    sum2.toNat = (s.flSum2.toNat + sum1.toNat) % (2 ^ s.fWc.bits - 1) →
      (s.fNpart.toNat + 1 = n →
        exec (.flByte (b.setWidth 32)) s =
          .next { s with flSum1 := sum1, flSum2 := sum2, flPart := 0#32, fNpart := 0#3,
                         resp := okResponse (sum2.setWidth 64 <<< s.fWc.bits ||| sum1.setWidth 64) }) ∧
      (s.fNpart.toNat + 1 ≠ n →
        exec (.flByte (b.setWidth 32)) s =
          .next { s with flPart := part, fNpart := s.fNpart + 1#3,
                         resp := okResponse (s.flSum2.setWidth 64 <<< s.fWc.bits ||| s.flSum1.setWidth 64) }) ∧
      (part.toNat = 2 ^ s.fWc.bits - 1 → sum1 = s.flSum1)) ∧
  (∀ s : State, s.fActive = true → s.fWc = .w16 → s.fOrd = false → s.fNpart = 1#3 → s.flPart = 0x61#32 →
    s.flSum1 = 0#32 → s.flSum2 = 0#32 →
      exec (.flByte 0x62#32) s =
        .next { s with flSum1 := 0x6261#32, flSum2 := 0x6261#32, flPart := 0#32, fNpart := 0#3,
                       resp := okResponse 0x62616261#64 })

/-- 42_fletcher.md R155: E_SEQ without a session; the zero-padded result in FL_OUT and the response; the session
registers unchanged, a second FL.FINAL the same, 0 right after FL.START; the example over "abcde". -/
def Obligations.FlFinalPadsOnACopy : Prop :=
  DecodesAs 0x22 (· = 0#8) (· = 0#32) (fun _ _ => .flFinal) ∧
  (∀ s : State, s.fActive = false → exec .flFinal s = .next (reject .seq s)) ∧
  (∀ (s : State) (s1 s2 : Word) (out : DWord), s.fActive = true → FletcherInRange s →
    s1.toNat = (if 0 < s.fNpart.toNat then (s.flSum1.toNat + s.flPart.toNat) % (2 ^ s.fWc.bits - 1)
      else s.flSum1.toNat) →
    s2.toNat = (if 0 < s.fNpart.toNat then (s.flSum2.toNat + s1.toNat) % (2 ^ s.fWc.bits - 1)
      else s.flSum2.toNat) →
    out = s2.setWidth 64 <<< s.fWc.bits ||| s1.setWidth 64 →
      exec .flFinal s = .next { s with flOut := out, resp := okResponse out } ∧
      exec .flFinal { s with flOut := out, resp := okResponse out } =
        .next { s with flOut := out, resp := okResponse out } ∧
      out.toNat < 2 ^ (2 * s.fWc.bits)) ∧
  (∀ (w : Width) (ord : Bool) (s : State), ∃ t u : State, exec (.flStart w.code ord) s = .next t ∧
    exec .flFinal t = .next u ∧ u.resp = okResponse 0#64) ∧
  (∀ s : State, s.fActive = true → s.fWc = .w16 → s.fOrd = false → s.fNpart = 1#3 → s.flPart = 0x0065#32 →
    s.flSum1 = 0xC6C4#32 → s.flSum2 = 0x2926#32 →
      exec .flFinal s = .next { s with flOut := 0xF04FC729#64, resp := okResponse 0xF04FC729#64 })

/-! ## Whole buffers -/

/-- 40_crc_bitloop.md R108 (and R109 for no data): from any state that meets the invariants with a staged
configuration that fits its width, CRC.START, then any command words but CRC.START and RST, then CRC.FINAL, respond
with the whole-buffer function of the data bytes among those words, whatever the mix of CRC.BYTEB and CRC.BYTET and
whatever stands between, rejected words included. -/
def Obligations.CrcSessionComputesTheWholeBuffer : Prop :=
  ∀ (s : State) (cs : List Command) (rest : List HostEvent), s.Inv →
    s.crcPoly.toNat < 2 ^ s.crcCtrl.width.bits → s.crcInit.toNat < 2 ^ s.crcCtrl.width.bits →
    s.crcXorout.toNat < 2 ^ s.crcCtrl.width.bits →
    (∀ c ∈ cs, startsOrResetsCrc c = false) →
    s.hostStream = commands (encode .crcStart :: cs ++ [encode .crcFinal]) ++ rest →
      ∃ t : State, Host.Core.run Sys2Proof.core (cs.length + 2) s = .next t ∧ t.hostStream = rest ∧
        t.crcOut = crc (cs.filterMap crcDataByte?) s.crcPoly s.crcInit s.crcCtrl.refin s.crcCtrl.refout s.crcXorout
          s.crcCtrl.width ∧
        t.resp = okResponse (t.crcOut.setWidth 64)

/-- 40_crc_bitloop.md R109: with a staged configuration that fits, no data command between CRC.START and CRC.FINAL (other
commands may stand there, rejected ones too) gives the initial value XOR the final XOR, reflected over w bits if
REFOUT. -/
def Obligations.EmptyCrcIsTheFinalisedInitialValue : Prop :=
  ∀ (s : State) (cs : List Command) (rest : List HostEvent),
    s.crcPoly.toNat < 2 ^ s.crcCtrl.width.bits → s.crcInit.toNat < 2 ^ s.crcCtrl.width.bits →
    s.crcXorout.toNat < 2 ^ s.crcCtrl.width.bits →
    (∀ c ∈ cs, startsOrResetsCrc c = false ∧ crcDataByte? c = none) →
    s.hostStream = commands (encode .crcStart :: cs ++ [encode .crcFinal]) ++ rest →
      ∃ t : State, Host.Core.run Sys2Proof.core (cs.length + 2) s = .next t ∧ t.hostStream = rest ∧
        t.crcOut = (if s.crcCtrl.refout then reflectW (s.crcInit ^^^ s.crcXorout) s.crcCtrl.width
          else s.crcInit ^^^ s.crcXorout) ∧
        t.resp = okResponse (t.crcOut.setWidth 64)

/-- 42_fletcher.md R156 (and R159 for no data): from any state, FL.START, then any command words but FL.START and RST,
then FL.FINAL, respond with the whole-buffer function of the data bytes among those words. -/
def Obligations.FletcherSessionComputesTheWholeBuffer : Prop :=
  ∀ (s : State) (w : Width) (ord : Bool) (cs : List Command) (rest : List HostEvent),
    (∀ c ∈ cs, startsOrResetsFletcher c = false) →
    s.hostStream = commands (encode (.flStart w.code ord) :: cs ++ [encode .flFinal]) ++ rest →
      ∃ t : State, Host.Core.run Sys2Proof.core (cs.length + 2) s = .next t ∧ t.hostStream = rest ∧
        t.flOut = fletcher (cs.filterMap fletcherDataByte?) w ord ∧ t.resp = okResponse t.flOut

/-- 42_fletcher.md R161: what appending a zero byte does to a Fletcher result, in an incomplete word and at a word
boundary. -/
def Obligations.AppendedZeroByteChangesTheSumOnlyAtABoundary : Prop :=
  ∀ (w : Width) (ord : Bool) (d : List Byte),
    (d.length % w.bytes ≠ 0 → fletcher (d ++ [0#8]) w ord = fletcher d w ord) ∧
    (d.length % w.bytes = 0 →
      fletcher (d ++ [0#8]) w ord =
        packSums w (addM w (fletcherSums d w ord).2 (fletcherSums d w ord).1) (fletcherSums d w ord).1 ∧
      (fletcher (d ++ [0#8]) w ord ≠ fletcher d w ord ↔ (fletcherSums d w ord).1 ≠ 0#32))

/-- 42_fletcher.md R157, R159 and R160: the empty buffer gives 0 in both orders, the order does not matter for
Fletcher-16, and a result is below 2^(2w) with both halves below M. -/
def Obligations.FletcherResultsStayInRange : Prop :=
  (∀ (w : Width) (ord : Bool), fletcher [] w ord = 0#64) ∧
  (∀ d : List Byte, fletcher d .w8 false = fletcher d .w8 true) ∧
  (∀ (d : List Byte) (w : Width) (ord : Bool), (fletcher d w ord).toNat < 2 ^ (2 * w.bits) ∧
    (fletcher d w ord).toNat % 2 ^ w.bits < 2 ^ w.bits - 1 ∧ (fletcher d w ord).toNat / 2 ^ w.bits < 2 ^ w.bits - 1)

/-- 40_crc_bitloop.md R111 and 42_fletcher.md R160, as rules about the result a FINAL has just written, in a state
that meets the invariants (assumption log entry 6). -/
def Obligations.FinalResultsFitTheirWidth : Prop :=
  ∀ s t : State, s.Inv →
    (s.aActive = true → exec .crcFinal s = .next t → t.crcOut.toNat < 2 ^ t.aWc.bits) ∧
    (s.fActive = true → exec .flFinal s = .next t →
      t.flOut.toNat < 2 ^ (2 * t.fWc.bits) ∧ t.flOut.toNat % 2 ^ t.fWc.bits < 2 ^ t.fWc.bits - 1 ∧
        t.flOut.toNat / 2 ^ t.fWc.bits < 2 ^ t.fWc.bits - 1)

/-! ## What a command leaves alone -/

/-- 20_memory.md R58, 43_engine_control.md R170-R172, R174 and 40_crc_bitloop.md R104: the frame of the control
commands NOP, RD, WR, CLRERR and of CRC.PRESET: only the staged configuration, STATUS and the response can change; NOP,
RD and CLRERR leave the staged configuration alone too. -/
def Obligations.ControlCommandsKeepTheSessions : Prop :=
  ∀ (i : Instr) (s t : State),
    (i = .nop ∨ (∃ r, i = .rd r) ∨ (∃ r v, i = .wr r v) ∨ i = .clrerr ∨ (∃ p, i = .crcPreset p)) →
    exec i s = .next t →
      SameCrcParameters s t ∧ s.crcReg = t.crcReg ∧ s.crcOut = t.crcOut ∧ SameFletcherSession s t ∧ s.flOut = t.flOut ∧
      SameTable s t ∧ s.freeDraws = t.freeDraws ∧ s.hostStream = t.hostStream ∧
      (i = .nop ∨ (∃ r, i = .rd r) ∨ i = .clrerr → SameStaged s t)

/-- 40_crc_bitloop.md R105-R107 and 41_crc_table.md R135-R137: the frame of the CRC session and table commands: the
staged configuration, the Fletcher unit and the command stream do not change; each changes only the CRC registers its
rule writes. -/
def Obligations.CrcCommandsKeepTheRest : Prop :=
  ∀ (i : Instr) (s t : State),
    (i = .crcStart ∨ (∃ d, i = .crcByteB d) ∨ (∃ d, i = .crcByteT d) ∨ i = .crcFinal ∨ i = .tabBuild ∨
      (∃ d, i = .tabRead d)) →
    exec i s = .next t →
      SameStaged s t ∧ SameFletcherSession s t ∧ s.flOut = t.flOut ∧ s.freeDraws = t.freeDraws ∧
      s.hostStream = t.hostStream ∧
      (i ≠ .crcStart → SameCrcParameters s t) ∧
      (i ≠ .crcFinal → s.crcOut = t.crcOut) ∧
      (i = .crcFinal ∨ i = .tabBuild ∨ (∃ d, i = .tabRead d) → s.crcReg = t.crcReg) ∧
      (i = .crcStart ∨ (∃ d, i = .crcByteB d) ∨ i = .crcFinal → SameTable s t)

/-- 42_fletcher.md R153-R155: the frame of the Fletcher commands: the staged configuration, the CRC session, CRC_OUT,
the table and the command stream do not change; FL.FINAL changes no session register, and only FL.FINAL writes
FL_OUT. -/
def Obligations.FletcherCommandsKeepTheRest : Prop :=
  ∀ (i : Instr) (s t : State),
    ((∃ wc ord, i = .flStart wc ord) ∨ (∃ d, i = .flByte d) ∨ i = .flFinal) →
    exec i s = .next t →
      SameStaged s t ∧ SameCrcParameters s t ∧ s.crcReg = t.crcReg ∧ s.crcOut = t.crcOut ∧ SameTable s t ∧
      s.freeDraws = t.freeDraws ∧ s.hostStream = t.hostStream ∧
      (i = .flFinal → SameFletcherSession s t) ∧ (i ≠ .flFinal → s.flOut = t.flOut) ∧
      ((∃ d, i = .flByte d) → s.fActive = t.fActive ∧ s.fWc = t.fWc ∧ s.fOrd = t.fOrd)

/-! ## Whole-machine rules -/

/-- 10_state.md R25 and 70_reset_and_hazards.md R234: whatever the host sends, the latched CRC parameters change only
by CRC.START and reset; in particular no WR and no CRC.PRESET affects an open session. -/
def Obligations.OnlyStartAndResetChangeTheCrcParameters : Prop :=
  ∀ (s t : State) (c : Command) (rest : List HostEvent), s.hostStream = .command c :: rest → step s = .next t →
    startsOrResetsCrc c = false → SameCrcParameters s t

/-- 10_state.md R26, R27, R36: who writes CRC_REG, CRC_OUT and FL_OUT. -/
def Obligations.ResultRegistersHaveOneWriter : Prop :=
  ∀ (s t : State) (c : Command) (rest : List HostEvent), s.hostStream = .command c :: rest → step s = .next t →
    decode c ≠ .ok .rst →
      (startsOrResetsCrc c = false → crcDataByte? c = none → t.crcReg = s.crcReg) ∧
      (decode c ≠ .ok .crcFinal → t.crcOut = s.crcOut) ∧
      (decode c ≠ .ok .flFinal → t.flOut = s.flOut)

/-- 10_state.md R42: a session, once open, is closed by nothing but a reset. -/
def Obligations.OnlyResetClosesASession : Prop :=
  ∀ (s t : State), step s = .next t →
    (s.aActive = true ∧ t.aActive = false ∨ s.fActive = true ∧ t.fActive = false) →
      ∃ rest : List HostEvent, s.hostStream = .powerOnReset :: rest ∨
        ∃ c : Command, s.hostStream = .command c :: rest ∧ decode c = .ok .rst

/-- 10_state.md R38 and 40_crc_bitloop.md R113: the hidden table influences no response and no register, over any
number of steps: two states that meet the invariants and differ only in the table stay equal but for the table. -/
def Obligations.TableCacheIsInvisible : Prop :=
  ∀ (n : Nat) (s t : State), s.Inv → t.Inv → SameButCache s t →
    ∃ s' t' : State, Host.Core.run Sys2Proof.core n s = .next s' ∧ Host.Core.run Sys2Proof.core n t = .next t' ∧
      SameButCache s' t'

/-- 42_fletcher.md R162: the response of a Fletcher command, and the session after it, are functions of the command
word and the Fletcher session registers alone. -/
def Obligations.FletcherCommandsSeeOnlyTheirSession : Prop :=
  ∀ (c : Command) (s t : State) (rest rest' : List HostEvent), s.hostStream = .command c :: rest →
    t.hostStream = .command c :: rest' → (opcField c = 0x20 ∨ opcField c = 0x21 ∨ opcField c = 0x22) →
    SameFletcherSession s t →
      ∃ s' t' : State, step s = .next s' ∧ step t = .next t' ∧ s'.resp = t'.resp ∧ SameFletcherSession s' t'

/-- 20_memory.md R58: RD and TAB.READ change nothing a command can observe but the response, and CRC.FINAL and
FL.FINAL give the same response when repeated. -/
def Obligations.ReadsAndFinalsAreIdempotent : Prop :=
  (∀ (r : BitVec 8) (s t : State) (d : DWord), exec (.rd r) s = .next t → t.resp = okResponse d →
    t = { s with resp := t.resp }) ∧
  (∀ (opd : Word) (s t : State) (d : DWord), exec (.tabRead opd) s = .next t → t.resp = okResponse d →
    SameButCache t { s with resp := t.resp }) ∧
  (∀ s t : State, exec .crcFinal s = .next t → s.aActive = true → exec .crcFinal t = .next t) ∧
  (∀ s t : State, exec .flFinal s = .next t → s.fActive = true → exec .flFinal t = .next t)
end

