-- ==== Sys2Proof/Laws/Decode.lean ====
section
/-! SUPPORT. The fields of an assembled word, a word from its fields, and what the decoder's checks answer. -/

namespace Sys2Proof

/-- Bit `i` of an assembled word lies in the field whose range holds `i` (30_encoding.md R71). -/
theorem getLsbD_assemble (o f : BitVec 8) (r : BitVec 16) (d : Word) (i : Nat) :
    (assemble o f r d).getLsbD i =
      if i < 32 then d.getLsbD i else if i < 48 then r.getLsbD (i - 32)
        else if i < 56 then f.getLsbD (i - 48) else o.getLsbD (i - 56) := by
  have h : (((o ++ f) ++ r) ++ d : BitVec (8 + 8 + 16 + 32)).getLsbD i =
      if i < 32 then d.getLsbD i else if i < 48 then r.getLsbD (i - 32)
        else if i < 56 then f.getLsbD (i - 48) else o.getLsbD (i - 56) := by
    simp only [BitVec.getLsbD_append]
    by_cases h1 : i < 32
    · simp [h1]
    · by_cases h2 : i < 48
      · simp [h1, h2, show i - 32 < 16 by omega]
      · by_cases h3 : i < 56
        · simp [h1, h2, h3, show ¬(i - 32 < 16) by omega, show i - 48 < 8 by omega,
            show i - 32 - 16 = i - 48 by omega]
        · simp [h1, h2, h3, show ¬(i - 32 < 16) by omega, show ¬(i - 32 - 16 < 8) by omega,
            show i - 32 - 16 - 8 = i - 56 by omega]
  exact h

@[simp] theorem opcField_assemble (o f : BitVec 8) (r : BitVec 16) (d : Word) : opcField (assemble o f r d) = o := by
  apply BitVec.eq_of_getLsbD_eq
  intro i hi
  rw [opcField, BitVec.getLsbD_extractLsb', getLsbD_assemble]
  simp [hi, show ¬(56 + i < 32) by omega, show ¬(56 + i < 48) by omega]

@[simp] theorem fField_assemble (o f : BitVec 8) (r : BitVec 16) (d : Word) : fField (assemble o f r d) = f := by
  apply BitVec.eq_of_getLsbD_eq
  intro i hi
  rw [fField, BitVec.getLsbD_extractLsb', getLsbD_assemble]
  simp [hi, show ¬(48 + i < 32) by omega, show 48 + i < 56 by omega]

@[simp] theorem rsvField_assemble (o f : BitVec 8) (r : BitVec 16) (d : Word) : rsvField (assemble o f r d) = r := by
  apply BitVec.eq_of_getLsbD_eq
  intro i hi
  rw [rsvField, BitVec.getLsbD_extractLsb', getLsbD_assemble]
  simp [hi, show 32 + i < 48 by omega]

@[simp] theorem opdField_assemble (o f : BitVec 8) (r : BitVec 16) (d : Word) : opdField (assemble o f r d) = d := by
  apply BitVec.eq_of_getLsbD_eq
  intro i hi
  rw [opdField, BitVec.getLsbD_extractLsb', getLsbD_assemble]
  simp [hi]

/-- A word is its four fields (30_encoding.md R71). -/
theorem assemble_fields (c : Command) : assemble (opcField c) (fField c) (rsvField c) (opdField c) = c := by
  apply BitVec.eq_of_getLsbD_eq
  intro i hi
  rw [getLsbD_assemble]
  simp only [opcField, fField, rsvField, opdField, BitVec.getLsbD_extractLsb']
  by_cases h1 : i < 32
  · simp [h1]
  · by_cases h2 : i < 48
    · simp [h1, h2, show i - 32 < 16 by omega, show 32 + (i - 32) = i by omega]
    · by_cases h3 : i < 56
      · simp [h1, h2, h3, show i - 48 < 8 by omega, show 48 + (i - 48) = i by omega]
      · simp [h1, h2, h3, show i - 56 < 8 by omega, show 56 + (i - 56) = i by omega]

/-- Two words with the same fields are the same word. -/
theorem command_ext {c c' : Command} (ho : opcField c = opcField c') (hf : fField c = fField c')
    (hr : rsvField c = rsvField c') (hd : opdField c = opdField c') : c = c' := by
  rw [← assemble_fields c, ← assemble_fields c', ho, hf, hr, hd]

@[simp] theorem wcOfF_flStartField (wc : BitVec 2) (ord : Bool) : wcOfF (flStartField wc ord) = wc := by
  revert wc ord; decide

@[simp] theorem ordOfF_flStartField (wc : BitVec 2) (ord : Bool) : ordOfF (flStartField wc ord) = ord := by
  revert wc ord; decide

/-- An F of FL.START that passes its check is the field of its width code and byte order. -/
theorem flStartField_of_legal : ∀ f : BitVec 8, flStartFieldLegal f = true →
    flStartField (wcOfF f) (ordOfF f) = f ∧ wcOfF f ≠ 3#2 := by
  decide +kernel

/-- Everything the checks after the opcode can do: pass all three, or reject. -/
theorem checkedDecode_eq_ok {c : Command} {fOk opdOk : Bool} {i j : Instr} :
    checkedDecode c fOk opdOk i = .ok j ↔ rsvField c = 0#16 ∧ fOk = true ∧ opdOk = true ∧ i = j := by
  unfold checkedDecode
  by_cases h1 : rsvField c = 0#16 <;> cases fOk <;> cases opdOk <;> simp [h1]

end Sys2Proof
end

