-- ==== Sys2Proof/Laws/Functions.lean ====
section
/-! SUPPORT. Widths and masks, and the small lemmas of the CRC and Fletcher functions: what each bit of a result is,
that results fit the width, and that the shift is linear. -/

namespace Sys2Proof

@[simp] theorem Width.bits_w8 : Width.w8.bits = 8 := rfl
@[simp] theorem Width.bits_w16 : Width.w16.bits = 16 := rfl
@[simp] theorem Width.bits_w32 : Width.w32.bits = 32 := rfl

theorem Width.bits_bounds (w : Width) : 8 ≤ w.bits ∧ w.bits ≤ 32 := by cases w <;> simp

@[simp] theorem Width.ofCode?_code (w : Width) : Width.ofCode? w.code = some w := by cases w <;> rfl

theorem Width.code_injective {v w : Width} (h : v.code = w.code) : v = w := by
  have := congrArg Width.ofCode? h
  simpa using this

/-- The reserved code 3 is the only code of no width (00_scope.md R7). -/
theorem Width.ofCode?_eq_none : ∀ wc : BitVec 2, Width.ofCode? wc = none ↔ wc = 3#2 := by decide

@[simp] theorem Width.fits_iff (w : Width) (v : Word) : w.fits v = true ↔ v.toNat < 2 ^ w.bits := by
  simp [Width.fits]

theorem Width.toNat_mask (w : Width) : w.mask.toNat = 2 ^ w.bits - 1 := by cases w <;> rfl

theorem Width.getLsbD_mask (w : Width) (i : Nat) : w.mask.getLsbD i = decide (i < w.bits) := by
  rw [← BitVec.testBit_toNat, w.toNat_mask, Nat.testBit_two_pow_sub_one]

/-- A value fits a width exactly when no bit at or above it is set. -/
theorem Width.lt_iff_bits (w : Width) (v : Word) :
    v.toNat < 2 ^ w.bits ↔ ∀ i, w.bits ≤ i → v.getLsbD i = false := by
  constructor
  · intro h i hi
    rw [← BitVec.testBit_toNat]
    exact Nat.testBit_lt_two_pow (Nat.lt_of_lt_of_le h (Nat.pow_le_pow_right (by omega) hi))
  · intro h
    apply Nat.lt_pow_two_of_testBit
    intro i hi
    rw [BitVec.testBit_toNat]
    exact h i hi

/-- Masking a value that fits changes nothing. -/
theorem Width.and_mask_of_lt {w : Width} {v : Word} (h : v.toNat < 2 ^ w.bits) : v &&& w.mask = v := by
  apply BitVec.eq_of_getLsbD_eq
  intro i _
  rw [BitVec.getLsbD_and, w.getLsbD_mask]
  by_cases hi : i < w.bits
  · simp [hi]
  · simp [hi, (w.lt_iff_bits v).1 h i (by omega)]

theorem Width.and_mask_lt (w : Width) (v : Word) : (v &&& w.mask).toNat < 2 ^ w.bits := by
  rw [w.lt_iff_bits]
  intro i hi
  rw [BitVec.getLsbD_and, w.getLsbD_mask]
  simp [hi]

theorem Width.xor_lt {w : Width} {u v : Word} (hu : u.toNat < 2 ^ w.bits) (hv : v.toNat < 2 ^ w.bits) :
    (u ^^^ v).toNat < 2 ^ w.bits := by
  rw [BitVec.toNat_xor]; exact Nat.xor_lt_two_pow hu hv

theorem Width.or_lt {w : Width} {u v : Word} (hu : u.toNat < 2 ^ w.bits) (hv : v.toNat < 2 ^ w.bits) :
    (u ||| v).toNat < 2 ^ w.bits := by
  rw [BitVec.toNat_or]; exact Nat.or_lt_two_pow hu hv

namespace Machine

theorem getLsbD_reflect8 (b : Byte) (i : Nat) (h : i < 8) : (reflect8 b).getLsbD i = b.getLsbD (7 - i) := by
  rw [reflect8, BitVec.getLsbD_reverse, BitVec.getMsbD]
  simp [h]

/-- The bits of a reflected register: reversed inside the width, clear above it (00_scope.md R10). -/
theorem getLsbD_reflectW (v : Word) (w : Width) (i : Nat) :
    (reflectW v w).getLsbD i = (decide (i < w.bits) && v.getLsbD (w.bits - 1 - i)) := by
  have hb := w.bits_bounds
  rw [reflectW, BitVec.getLsbD_setWidth, BitVec.getLsbD_reverse, BitVec.getMsbD, BitVec.getLsbD_setWidth]
  by_cases h : i < w.bits
  · simp [h, show i < 32 by omega, show w.bits - 1 - i < w.bits by omega]
  · simp [h]

theorem reflectW_lt (v : Word) (w : Width) : (reflectW v w).toNat < 2 ^ w.bits := by
  rw [w.lt_iff_bits]
  intro i hi
  rw [getLsbD_reflectW]
  simp [hi]

theorem reflectW_xor (u v : Word) (w : Width) : reflectW (u ^^^ v) w = reflectW u w ^^^ reflectW v w := by
  apply BitVec.eq_of_getLsbD_eq
  intro i _
  simp only [getLsbD_reflectW, BitVec.getLsbD_xor]
  cases decide (i < w.bits) <;> simp

/-- One shift is linear over XOR, for every polynomial (41_crc_table.md R131). -/
theorem crcShift1_xor (poly : Word) (w : Width) (u v : Word) :
    crcShift1 poly w (u ^^^ v) = crcShift1 poly w u ^^^ crcShift1 poly w v := by
  simp only [crcShift1, BitVec.getLsbD_xor]
  rw [BitVec.shiftLeft_xor_distrib]
  cases u.getLsbD (w.bits - 1) <;> cases v.getLsbD (w.bits - 1) <;>
    · apply BitVec.eq_of_getLsbD_eq
      intro i _
      simp only [BitVec.getLsbD_xor, BitVec.getLsbD_and, Bool.xor_false, Bool.xor_true, Bool.not_false, Bool.not_true,
        if_true, if_false, Bool.false_eq_true]
      generalize w.mask.getLsbD i = m
      generalize poly.getLsbD i = p
      generalize (u <<< 1).getLsbD i = a
      generalize (v <<< 1).getLsbD i = b
      revert m p a b; decide

theorem crcShifts_xor (poly : Word) (w : Width) (k : Nat) (u v : Word) :
    crcShifts poly w k (u ^^^ v) = crcShifts poly w k u ^^^ crcShifts poly w k v := by
  induction k generalizing u v with
  | zero => rfl
  | succ k ih => simp only [crcShifts, crcShift1_xor, ih]

theorem crcShift1_lt {poly : Word} {w : Width} (hp : poly.toNat < 2 ^ w.bits) (r : Word) :
    (crcShift1 poly w r).toNat < 2 ^ w.bits := by
  rw [crcShift1]
  split
  · exact Width.xor_lt (w.and_mask_lt _) hp
  · exact w.and_mask_lt _

theorem crcShifts_lt {poly : Word} {w : Width} (hp : poly.toNat < 2 ^ w.bits) (k : Nat) {r : Word}
    (hr : r.toNat < 2 ^ w.bits) : (crcShifts poly w k r).toNat < 2 ^ w.bits := by
  induction k generalizing r with
  | zero => exact hr
  | succ k ih => exact ih (crcShift1_lt hp r)

/-- After at least one shift the register fits the width, whatever it held. -/
theorem crcShift8_lt {poly : Word} {w : Width} (hp : poly.toNat < 2 ^ w.bits) (r : Word) (b : Byte) :
    (crcShift8 r b poly w).toNat < 2 ^ w.bits :=
  crcShifts_lt hp 7 (crcShift1_lt hp _)

theorem crcFinal_lt (r xorout : Word) (refout : Bool) (w : Width) : (crcFinal r xorout refout w).toNat < 2 ^ w.bits :=
  w.and_mask_lt _

theorem getLsbD_byteAtTop (b : Byte) (w : Width) (i : Nat) :
    (byteAtTop b w).getLsbD i = (decide (w.bits - 8 ≤ i ∧ i < w.bits) && b.getLsbD (i - (w.bits - 8))) := by
  have hb := w.bits_bounds
  rw [byteAtTop, BitVec.getLsbD_shiftLeft, BitVec.getLsbD_setWidth]
  by_cases h1 : w.bits - 8 ≤ i
  · by_cases h2 : i < w.bits
    · simp [h1, h2, show i < 32 by omega, show ¬(i < w.bits - 8) by omega, show i - (w.bits - 8) < 32 by omega]
    · have : b.getLsbD (i - (w.bits - 8)) = false := BitVec.getLsbD_of_ge _ _ (by omega)
      simp [this]
  · simp [h1, show i < w.bits - 8 by omega]

theorem byteAtTop_xor (a b : Byte) (w : Width) : byteAtTop (a ^^^ b) w = byteAtTop a w ^^^ byteAtTop b w := by
  apply BitVec.eq_of_getLsbD_eq
  intro i _
  simp only [getLsbD_byteAtTop, BitVec.getLsbD_xor]
  cases decide (w.bits - 8 ≤ i ∧ i < w.bits) <;> simp

/-- The shift step splits into the shifted register and a table entry (41_crc_table.md R133, the first half). -/
theorem crcShift8_eq_xor_tableEntry (r : Word) (b : Byte) (poly : Word) (w : Width) :
    crcShift8 r b poly w = crcShifts poly w 8 r ^^^ tableEntry poly w b := by
  simp [crcShift8, tableEntry, crcShifts_xor]

@[simp] theorem buildTable_length (poly : Word) (w : Width) : (buildTable poly w).length = 256 := by simp [buildTable]

/-- Every cell of a built table is the table function's value (41_crc_table.md R134). -/
theorem buildTable_getD (poly : Word) (w : Width) (i : Byte) :
    (buildTable poly w).getD i.toNat 0#32 = tableEntry poly w i := by
  have h : i.toNat < 256 := i.isLt
  simp [buildTable, List.getD, List.getElem?_map, List.getElem?_range h]

theorem modulus_pos (w : Width) : 0 < w.modulus := by cases w <;> decide

/-- The sum is the exact sum modulo M (42_fletcher.md R151). -/
theorem toNat_addM (w : Width) (a x : Word) : (addM w a x).toNat = (a.toNat + x.toNat) % w.modulus := by
  have h := Nat.mod_lt (a.toNat + x.toNat) (modulus_pos w)
  have hm : w.modulus < 2 ^ 32 := by cases w <;> decide
  rw [addM, BitVec.toNat_ofNat, Nat.mod_eq_of_lt (by omega)]

theorem addM_lt (w : Width) (a x : Word) : (addM w a x).toNat < w.modulus := by
  rw [toNat_addM]; exact Nat.mod_lt _ (modulus_pos w)

/-- The packed sums as a number: the second sum above the first (42_fletcher.md R155). -/
theorem toNat_packSums (w : Width) {s2 s1 : Word} (h1 : s1.toNat < 2 ^ w.bits) (h2 : s2.toNat < 2 ^ w.bits) :
    (packSums w s2 s1).toNat = s2.toNat * 2 ^ w.bits + s1.toNat := by
  have hw : 2 ^ w.bits * 2 ^ w.bits ≤ 2 ^ 64 := by cases w <;> decide
  have hlt : s2.toNat * 2 ^ w.bits + s1.toNat < 2 ^ w.bits * 2 ^ w.bits := by
    have := Nat.mul_le_mul_right (2 ^ w.bits) (Nat.succ_le_of_lt h2)
    rw [Nat.succ_mul] at this
    omega
  have e1 : (s1.setWidth 64).toNat = s1.toNat := BitVec.toNat_setWidth_of_le (by omega)
  have e2 : (s2.setWidth 64).toNat = s2.toNat := BitVec.toNat_setWidth_of_le (by omega)
  rw [packSums, BitVec.toNat_or, BitVec.toNat_shiftLeft, e1, e2, Nat.shiftLeft_eq, Nat.mod_eq_of_lt (by omega),
    ← Nat.shiftLeft_eq, ← Nat.shiftLeft_add_eq_or_of_lt h1]

/-- A byte stays inside the word when its position is inside the word (42_fletcher.md R152). -/
theorem byteInWord_lt (w : Width) (ord : Bool) (k : Nat) (b : Byte) (hk : k < w.bytes) :
    (byteInWord w ord k b).toNat < 2 ^ w.bits := by
  rw [w.lt_iff_bits]
  intro i hi
  have hb : w.bytes * 8 = w.bits := by cases w <;> rfl
  have hp : bytePos w ord k < w.bytes := by unfold bytePos; split <;> omega
  rw [byteInWord, BitVec.getLsbD_shiftLeft, BitVec.getLsbD_setWidth,
    BitVec.getLsbD_of_ge b (i - 8 * bytePos w ord k) (by omega)]
  simp

end Machine

end Sys2Proof
end

