-- ==== Sys2Proof/Laws/State.lean ====
section
/-! SUPPORT. What each update of the state leaves in each field: one lemma per field per update. -/

namespace Sys2Proof.Machine

/-! `answer` -/

@[simp] theorem answer_crcPoly (d : DWord) (s : State) : (answer d s).crcPoly = s.crcPoly := rfl
@[simp] theorem answer_crcInit (d : DWord) (s : State) : (answer d s).crcInit = s.crcInit := rfl
@[simp] theorem answer_crcXorout (d : DWord) (s : State) : (answer d s).crcXorout = s.crcXorout := rfl
@[simp] theorem answer_crcCtrl (d : DWord) (s : State) : (answer d s).crcCtrl = s.crcCtrl := rfl
@[simp] theorem answer_aActive (d : DWord) (s : State) : (answer d s).aActive = s.aActive := rfl
@[simp] theorem answer_aWc (d : DWord) (s : State) : (answer d s).aWc = s.aWc := rfl
@[simp] theorem answer_aRefin (d : DWord) (s : State) : (answer d s).aRefin = s.aRefin := rfl
@[simp] theorem answer_aRefout (d : DWord) (s : State) : (answer d s).aRefout = s.aRefout := rfl
@[simp] theorem answer_aPoly (d : DWord) (s : State) : (answer d s).aPoly = s.aPoly := rfl
@[simp] theorem answer_aXorout (d : DWord) (s : State) : (answer d s).aXorout = s.aXorout := rfl
@[simp] theorem answer_crcReg (d : DWord) (s : State) : (answer d s).crcReg = s.crcReg := rfl
@[simp] theorem answer_crcOut (d : DWord) (s : State) : (answer d s).crcOut = s.crcOut := rfl
@[simp] theorem answer_fActive (d : DWord) (s : State) : (answer d s).fActive = s.fActive := rfl
@[simp] theorem answer_fWc (d : DWord) (s : State) : (answer d s).fWc = s.fWc := rfl
@[simp] theorem answer_fOrd (d : DWord) (s : State) : (answer d s).fOrd = s.fOrd := rfl
@[simp] theorem answer_flSum1 (d : DWord) (s : State) : (answer d s).flSum1 = s.flSum1 := rfl
@[simp] theorem answer_flSum2 (d : DWord) (s : State) : (answer d s).flSum2 = s.flSum2 := rfl
@[simp] theorem answer_flPart (d : DWord) (s : State) : (answer d s).flPart = s.flPart := rfl
@[simp] theorem answer_fNpart (d : DWord) (s : State) : (answer d s).fNpart = s.fNpart := rfl
@[simp] theorem answer_flOut (d : DWord) (s : State) : (answer d s).flOut = s.flOut := rfl
@[simp] theorem answer_status (d : DWord) (s : State) : (answer d s).status = s.status := rfl
@[simp] theorem answer_lutValid (d : DWord) (s : State) : (answer d s).lutValid = s.lutValid := rfl
@[simp] theorem answer_lutPoly (d : DWord) (s : State) : (answer d s).lutPoly = s.lutPoly := rfl
@[simp] theorem answer_lutWc (d : DWord) (s : State) : (answer d s).lutWc = s.lutWc := rfl
@[simp] theorem answer_lut (d : DWord) (s : State) : (answer d s).lut = s.lut := rfl
@[simp] theorem answer_hostStream (d : DWord) (s : State) : (answer d s).hostStream = s.hostStream := rfl
@[simp] theorem answer_resp (d : DWord) (s : State) : (answer d s).resp = some { code := okCode, data := d } := rfl
@[simp] theorem answer_freeDraws (d : DWord) (s : State) : (answer d s).freeDraws = s.freeDraws := rfl

/-! `reject` -/

@[simp] theorem reject_crcPoly (e : Err) (s : State) : (reject e s).crcPoly = s.crcPoly := rfl
@[simp] theorem reject_crcInit (e : Err) (s : State) : (reject e s).crcInit = s.crcInit := rfl
@[simp] theorem reject_crcXorout (e : Err) (s : State) : (reject e s).crcXorout = s.crcXorout := rfl
@[simp] theorem reject_crcCtrl (e : Err) (s : State) : (reject e s).crcCtrl = s.crcCtrl := rfl
@[simp] theorem reject_aActive (e : Err) (s : State) : (reject e s).aActive = s.aActive := rfl
@[simp] theorem reject_aWc (e : Err) (s : State) : (reject e s).aWc = s.aWc := rfl
@[simp] theorem reject_aRefin (e : Err) (s : State) : (reject e s).aRefin = s.aRefin := rfl
@[simp] theorem reject_aRefout (e : Err) (s : State) : (reject e s).aRefout = s.aRefout := rfl
@[simp] theorem reject_aPoly (e : Err) (s : State) : (reject e s).aPoly = s.aPoly := rfl
@[simp] theorem reject_aXorout (e : Err) (s : State) : (reject e s).aXorout = s.aXorout := rfl
@[simp] theorem reject_crcReg (e : Err) (s : State) : (reject e s).crcReg = s.crcReg := rfl
@[simp] theorem reject_crcOut (e : Err) (s : State) : (reject e s).crcOut = s.crcOut := rfl
@[simp] theorem reject_fActive (e : Err) (s : State) : (reject e s).fActive = s.fActive := rfl
@[simp] theorem reject_fWc (e : Err) (s : State) : (reject e s).fWc = s.fWc := rfl
@[simp] theorem reject_fOrd (e : Err) (s : State) : (reject e s).fOrd = s.fOrd := rfl
@[simp] theorem reject_flSum1 (e : Err) (s : State) : (reject e s).flSum1 = s.flSum1 := rfl
@[simp] theorem reject_flSum2 (e : Err) (s : State) : (reject e s).flSum2 = s.flSum2 := rfl
@[simp] theorem reject_flPart (e : Err) (s : State) : (reject e s).flPart = s.flPart := rfl
@[simp] theorem reject_fNpart (e : Err) (s : State) : (reject e s).fNpart = s.fNpart := rfl
@[simp] theorem reject_flOut (e : Err) (s : State) : (reject e s).flOut = s.flOut := rfl
@[simp] theorem reject_status (e : Err) (s : State) : (reject e s).status = statusAfter e s.status := rfl
@[simp] theorem reject_lutValid (e : Err) (s : State) : (reject e s).lutValid = s.lutValid := rfl
@[simp] theorem reject_lutPoly (e : Err) (s : State) : (reject e s).lutPoly = s.lutPoly := rfl
@[simp] theorem reject_lutWc (e : Err) (s : State) : (reject e s).lutWc = s.lutWc := rfl
@[simp] theorem reject_lut (e : Err) (s : State) : (reject e s).lut = s.lut := rfl
@[simp] theorem reject_hostStream (e : Err) (s : State) : (reject e s).hostStream = s.hostStream := rfl
@[simp] theorem reject_resp (e : Err) (s : State) : (reject e s).resp = some { code := e.code, data := 0#64 } := rfl
@[simp] theorem reject_freeDraws (e : Err) (s : State) : (reject e s).freeDraws = s.freeDraws := rfl

/-! `loadPreset` -/

@[simp] theorem loadPreset_crcPoly (cfg : Word × Word × Word × CrcCtrl) (s : State) : (loadPreset cfg s).crcPoly = cfg.1 := rfl
@[simp] theorem loadPreset_crcInit (cfg : Word × Word × Word × CrcCtrl) (s : State) : (loadPreset cfg s).crcInit = cfg.2.1 := rfl
@[simp] theorem loadPreset_crcXorout (cfg : Word × Word × Word × CrcCtrl) (s : State) : (loadPreset cfg s).crcXorout = cfg.2.2.1 := rfl
@[simp] theorem loadPreset_crcCtrl (cfg : Word × Word × Word × CrcCtrl) (s : State) : (loadPreset cfg s).crcCtrl = cfg.2.2.2 := rfl
@[simp] theorem loadPreset_aActive (cfg : Word × Word × Word × CrcCtrl) (s : State) : (loadPreset cfg s).aActive = s.aActive := rfl
@[simp] theorem loadPreset_aWc (cfg : Word × Word × Word × CrcCtrl) (s : State) : (loadPreset cfg s).aWc = s.aWc := rfl
@[simp] theorem loadPreset_aRefin (cfg : Word × Word × Word × CrcCtrl) (s : State) : (loadPreset cfg s).aRefin = s.aRefin := rfl
@[simp] theorem loadPreset_aRefout (cfg : Word × Word × Word × CrcCtrl) (s : State) : (loadPreset cfg s).aRefout = s.aRefout := rfl
@[simp] theorem loadPreset_aPoly (cfg : Word × Word × Word × CrcCtrl) (s : State) : (loadPreset cfg s).aPoly = s.aPoly := rfl
@[simp] theorem loadPreset_aXorout (cfg : Word × Word × Word × CrcCtrl) (s : State) : (loadPreset cfg s).aXorout = s.aXorout := rfl
@[simp] theorem loadPreset_crcReg (cfg : Word × Word × Word × CrcCtrl) (s : State) : (loadPreset cfg s).crcReg = s.crcReg := rfl
@[simp] theorem loadPreset_crcOut (cfg : Word × Word × Word × CrcCtrl) (s : State) : (loadPreset cfg s).crcOut = s.crcOut := rfl
@[simp] theorem loadPreset_fActive (cfg : Word × Word × Word × CrcCtrl) (s : State) : (loadPreset cfg s).fActive = s.fActive := rfl
@[simp] theorem loadPreset_fWc (cfg : Word × Word × Word × CrcCtrl) (s : State) : (loadPreset cfg s).fWc = s.fWc := rfl
@[simp] theorem loadPreset_fOrd (cfg : Word × Word × Word × CrcCtrl) (s : State) : (loadPreset cfg s).fOrd = s.fOrd := rfl
@[simp] theorem loadPreset_flSum1 (cfg : Word × Word × Word × CrcCtrl) (s : State) : (loadPreset cfg s).flSum1 = s.flSum1 := rfl
@[simp] theorem loadPreset_flSum2 (cfg : Word × Word × Word × CrcCtrl) (s : State) : (loadPreset cfg s).flSum2 = s.flSum2 := rfl
@[simp] theorem loadPreset_flPart (cfg : Word × Word × Word × CrcCtrl) (s : State) : (loadPreset cfg s).flPart = s.flPart := rfl
@[simp] theorem loadPreset_fNpart (cfg : Word × Word × Word × CrcCtrl) (s : State) : (loadPreset cfg s).fNpart = s.fNpart := rfl
@[simp] theorem loadPreset_flOut (cfg : Word × Word × Word × CrcCtrl) (s : State) : (loadPreset cfg s).flOut = s.flOut := rfl
@[simp] theorem loadPreset_status (cfg : Word × Word × Word × CrcCtrl) (s : State) : (loadPreset cfg s).status = s.status := rfl
@[simp] theorem loadPreset_lutValid (cfg : Word × Word × Word × CrcCtrl) (s : State) : (loadPreset cfg s).lutValid = s.lutValid := rfl
@[simp] theorem loadPreset_lutPoly (cfg : Word × Word × Word × CrcCtrl) (s : State) : (loadPreset cfg s).lutPoly = s.lutPoly := rfl
@[simp] theorem loadPreset_lutWc (cfg : Word × Word × Word × CrcCtrl) (s : State) : (loadPreset cfg s).lutWc = s.lutWc := rfl
@[simp] theorem loadPreset_lut (cfg : Word × Word × Word × CrcCtrl) (s : State) : (loadPreset cfg s).lut = s.lut := rfl
@[simp] theorem loadPreset_hostStream (cfg : Word × Word × Word × CrcCtrl) (s : State) : (loadPreset cfg s).hostStream = s.hostStream := rfl
@[simp] theorem loadPreset_resp (cfg : Word × Word × Word × CrcCtrl) (s : State) : (loadPreset cfg s).resp = s.resp := rfl
@[simp] theorem loadPreset_freeDraws (cfg : Word × Word × Word × CrcCtrl) (s : State) : (loadPreset cfg s).freeDraws = s.freeDraws := rfl

/-! `openCrcSession` -/

@[simp] theorem openCrcSession_crcPoly (s : State) : (openCrcSession s).crcPoly = s.crcPoly := rfl
@[simp] theorem openCrcSession_crcInit (s : State) : (openCrcSession s).crcInit = s.crcInit := rfl
@[simp] theorem openCrcSession_crcXorout (s : State) : (openCrcSession s).crcXorout = s.crcXorout := rfl
@[simp] theorem openCrcSession_crcCtrl (s : State) : (openCrcSession s).crcCtrl = s.crcCtrl := rfl
@[simp] theorem openCrcSession_aActive (s : State) : (openCrcSession s).aActive = true := rfl
@[simp] theorem openCrcSession_aWc (s : State) : (openCrcSession s).aWc = s.crcCtrl.width := rfl
@[simp] theorem openCrcSession_aRefin (s : State) : (openCrcSession s).aRefin = s.crcCtrl.refin := rfl
@[simp] theorem openCrcSession_aRefout (s : State) : (openCrcSession s).aRefout = s.crcCtrl.refout := rfl
@[simp] theorem openCrcSession_aPoly (s : State) : (openCrcSession s).aPoly = s.crcPoly := rfl
@[simp] theorem openCrcSession_aXorout (s : State) : (openCrcSession s).aXorout = s.crcXorout := rfl
@[simp] theorem openCrcSession_crcReg (s : State) : (openCrcSession s).crcReg = s.crcInit := rfl
@[simp] theorem openCrcSession_crcOut (s : State) : (openCrcSession s).crcOut = s.crcOut := rfl
@[simp] theorem openCrcSession_fActive (s : State) : (openCrcSession s).fActive = s.fActive := rfl
@[simp] theorem openCrcSession_fWc (s : State) : (openCrcSession s).fWc = s.fWc := rfl
@[simp] theorem openCrcSession_fOrd (s : State) : (openCrcSession s).fOrd = s.fOrd := rfl
@[simp] theorem openCrcSession_flSum1 (s : State) : (openCrcSession s).flSum1 = s.flSum1 := rfl
@[simp] theorem openCrcSession_flSum2 (s : State) : (openCrcSession s).flSum2 = s.flSum2 := rfl
@[simp] theorem openCrcSession_flPart (s : State) : (openCrcSession s).flPart = s.flPart := rfl
@[simp] theorem openCrcSession_fNpart (s : State) : (openCrcSession s).fNpart = s.fNpart := rfl
@[simp] theorem openCrcSession_flOut (s : State) : (openCrcSession s).flOut = s.flOut := rfl
@[simp] theorem openCrcSession_status (s : State) : (openCrcSession s).status = s.status := rfl
@[simp] theorem openCrcSession_lutValid (s : State) : (openCrcSession s).lutValid = s.lutValid := rfl
@[simp] theorem openCrcSession_lutPoly (s : State) : (openCrcSession s).lutPoly = s.lutPoly := rfl
@[simp] theorem openCrcSession_lutWc (s : State) : (openCrcSession s).lutWc = s.lutWc := rfl
@[simp] theorem openCrcSession_lut (s : State) : (openCrcSession s).lut = s.lut := rfl
@[simp] theorem openCrcSession_hostStream (s : State) : (openCrcSession s).hostStream = s.hostStream := rfl
@[simp] theorem openCrcSession_resp (s : State) : (openCrcSession s).resp = s.resp := rfl
@[simp] theorem openCrcSession_freeDraws (s : State) : (openCrcSession s).freeDraws = s.freeDraws := rfl

/-! `openFletcherSession` -/

@[simp] theorem openFletcherSession_crcPoly (w : Width) (ord : Bool) (s : State) : (openFletcherSession w ord s).crcPoly = s.crcPoly := rfl
@[simp] theorem openFletcherSession_crcInit (w : Width) (ord : Bool) (s : State) : (openFletcherSession w ord s).crcInit = s.crcInit := rfl
@[simp] theorem openFletcherSession_crcXorout (w : Width) (ord : Bool) (s : State) : (openFletcherSession w ord s).crcXorout = s.crcXorout := rfl
@[simp] theorem openFletcherSession_crcCtrl (w : Width) (ord : Bool) (s : State) : (openFletcherSession w ord s).crcCtrl = s.crcCtrl := rfl
@[simp] theorem openFletcherSession_aActive (w : Width) (ord : Bool) (s : State) : (openFletcherSession w ord s).aActive = s.aActive := rfl
@[simp] theorem openFletcherSession_aWc (w : Width) (ord : Bool) (s : State) : (openFletcherSession w ord s).aWc = s.aWc := rfl
@[simp] theorem openFletcherSession_aRefin (w : Width) (ord : Bool) (s : State) : (openFletcherSession w ord s).aRefin = s.aRefin := rfl
@[simp] theorem openFletcherSession_aRefout (w : Width) (ord : Bool) (s : State) : (openFletcherSession w ord s).aRefout = s.aRefout := rfl
@[simp] theorem openFletcherSession_aPoly (w : Width) (ord : Bool) (s : State) : (openFletcherSession w ord s).aPoly = s.aPoly := rfl
@[simp] theorem openFletcherSession_aXorout (w : Width) (ord : Bool) (s : State) : (openFletcherSession w ord s).aXorout = s.aXorout := rfl
@[simp] theorem openFletcherSession_crcReg (w : Width) (ord : Bool) (s : State) : (openFletcherSession w ord s).crcReg = s.crcReg := rfl
@[simp] theorem openFletcherSession_crcOut (w : Width) (ord : Bool) (s : State) : (openFletcherSession w ord s).crcOut = s.crcOut := rfl
@[simp] theorem openFletcherSession_fActive (w : Width) (ord : Bool) (s : State) : (openFletcherSession w ord s).fActive = true := rfl
@[simp] theorem openFletcherSession_fWc (w : Width) (ord : Bool) (s : State) : (openFletcherSession w ord s).fWc = w := rfl
@[simp] theorem openFletcherSession_fOrd (w : Width) (ord : Bool) (s : State) : (openFletcherSession w ord s).fOrd = ord := rfl
@[simp] theorem openFletcherSession_flSum1 (w : Width) (ord : Bool) (s : State) : (openFletcherSession w ord s).flSum1 = 0#32 := rfl
@[simp] theorem openFletcherSession_flSum2 (w : Width) (ord : Bool) (s : State) : (openFletcherSession w ord s).flSum2 = 0#32 := rfl
@[simp] theorem openFletcherSession_flPart (w : Width) (ord : Bool) (s : State) : (openFletcherSession w ord s).flPart = 0#32 := rfl
@[simp] theorem openFletcherSession_fNpart (w : Width) (ord : Bool) (s : State) : (openFletcherSession w ord s).fNpart = 0#3 := rfl
@[simp] theorem openFletcherSession_flOut (w : Width) (ord : Bool) (s : State) : (openFletcherSession w ord s).flOut = s.flOut := rfl
@[simp] theorem openFletcherSession_status (w : Width) (ord : Bool) (s : State) : (openFletcherSession w ord s).status = s.status := rfl
@[simp] theorem openFletcherSession_lutValid (w : Width) (ord : Bool) (s : State) : (openFletcherSession w ord s).lutValid = s.lutValid := rfl
@[simp] theorem openFletcherSession_lutPoly (w : Width) (ord : Bool) (s : State) : (openFletcherSession w ord s).lutPoly = s.lutPoly := rfl
@[simp] theorem openFletcherSession_lutWc (w : Width) (ord : Bool) (s : State) : (openFletcherSession w ord s).lutWc = s.lutWc := rfl
@[simp] theorem openFletcherSession_lut (w : Width) (ord : Bool) (s : State) : (openFletcherSession w ord s).lut = s.lut := rfl
@[simp] theorem openFletcherSession_hostStream (w : Width) (ord : Bool) (s : State) : (openFletcherSession w ord s).hostStream = s.hostStream := rfl
@[simp] theorem openFletcherSession_resp (w : Width) (ord : Bool) (s : State) : (openFletcherSession w ord s).resp = s.resp := rfl
@[simp] theorem openFletcherSession_freeDraws (w : Width) (ord : Bool) (s : State) : (openFletcherSession w ord s).freeDraws = s.freeDraws := rfl

/-! `offerCommand` -/

@[simp] theorem offerCommand_crcPoly (c : Command) (s : State) : (offerCommand c s).crcPoly = s.crcPoly := rfl
@[simp] theorem offerCommand_crcInit (c : Command) (s : State) : (offerCommand c s).crcInit = s.crcInit := rfl
@[simp] theorem offerCommand_crcXorout (c : Command) (s : State) : (offerCommand c s).crcXorout = s.crcXorout := rfl
@[simp] theorem offerCommand_crcCtrl (c : Command) (s : State) : (offerCommand c s).crcCtrl = s.crcCtrl := rfl
@[simp] theorem offerCommand_aActive (c : Command) (s : State) : (offerCommand c s).aActive = s.aActive := rfl
@[simp] theorem offerCommand_aWc (c : Command) (s : State) : (offerCommand c s).aWc = s.aWc := rfl
@[simp] theorem offerCommand_aRefin (c : Command) (s : State) : (offerCommand c s).aRefin = s.aRefin := rfl
@[simp] theorem offerCommand_aRefout (c : Command) (s : State) : (offerCommand c s).aRefout = s.aRefout := rfl
@[simp] theorem offerCommand_aPoly (c : Command) (s : State) : (offerCommand c s).aPoly = s.aPoly := rfl
@[simp] theorem offerCommand_aXorout (c : Command) (s : State) : (offerCommand c s).aXorout = s.aXorout := rfl
@[simp] theorem offerCommand_crcReg (c : Command) (s : State) : (offerCommand c s).crcReg = s.crcReg := rfl
@[simp] theorem offerCommand_crcOut (c : Command) (s : State) : (offerCommand c s).crcOut = s.crcOut := rfl
@[simp] theorem offerCommand_fActive (c : Command) (s : State) : (offerCommand c s).fActive = s.fActive := rfl
@[simp] theorem offerCommand_fWc (c : Command) (s : State) : (offerCommand c s).fWc = s.fWc := rfl
@[simp] theorem offerCommand_fOrd (c : Command) (s : State) : (offerCommand c s).fOrd = s.fOrd := rfl
@[simp] theorem offerCommand_flSum1 (c : Command) (s : State) : (offerCommand c s).flSum1 = s.flSum1 := rfl
@[simp] theorem offerCommand_flSum2 (c : Command) (s : State) : (offerCommand c s).flSum2 = s.flSum2 := rfl
@[simp] theorem offerCommand_flPart (c : Command) (s : State) : (offerCommand c s).flPart = s.flPart := rfl
@[simp] theorem offerCommand_fNpart (c : Command) (s : State) : (offerCommand c s).fNpart = s.fNpart := rfl
@[simp] theorem offerCommand_flOut (c : Command) (s : State) : (offerCommand c s).flOut = s.flOut := rfl
@[simp] theorem offerCommand_status (c : Command) (s : State) : (offerCommand c s).status = s.status := rfl
@[simp] theorem offerCommand_lutValid (c : Command) (s : State) : (offerCommand c s).lutValid = s.lutValid := rfl
@[simp] theorem offerCommand_lutPoly (c : Command) (s : State) : (offerCommand c s).lutPoly = s.lutPoly := rfl
@[simp] theorem offerCommand_lutWc (c : Command) (s : State) : (offerCommand c s).lutWc = s.lutWc := rfl
@[simp] theorem offerCommand_lut (c : Command) (s : State) : (offerCommand c s).lut = s.lut := rfl
@[simp] theorem offerCommand_hostStream (c : Command) (s : State) : (offerCommand c s).hostStream = .command c :: s.hostStream := rfl
@[simp] theorem offerCommand_resp (c : Command) (s : State) : (offerCommand c s).resp = s.resp := rfl
@[simp] theorem offerCommand_freeDraws (c : Command) (s : State) : (offerCommand c s).freeDraws = s.freeDraws := rfl

/-! `resetEngine` -/

@[simp] theorem resetEngine_crcPoly (s : State) : (resetEngine s).crcPoly = State.reset.crcPoly := rfl
@[simp] theorem resetEngine_crcInit (s : State) : (resetEngine s).crcInit = State.reset.crcInit := rfl
@[simp] theorem resetEngine_crcXorout (s : State) : (resetEngine s).crcXorout = State.reset.crcXorout := rfl
@[simp] theorem resetEngine_crcCtrl (s : State) : (resetEngine s).crcCtrl = State.reset.crcCtrl := rfl
@[simp] theorem resetEngine_aActive (s : State) : (resetEngine s).aActive = State.reset.aActive := rfl
@[simp] theorem resetEngine_aWc (s : State) : (resetEngine s).aWc = State.reset.aWc := rfl
@[simp] theorem resetEngine_aRefin (s : State) : (resetEngine s).aRefin = State.reset.aRefin := rfl
@[simp] theorem resetEngine_aRefout (s : State) : (resetEngine s).aRefout = State.reset.aRefout := rfl
@[simp] theorem resetEngine_aPoly (s : State) : (resetEngine s).aPoly = State.reset.aPoly := rfl
@[simp] theorem resetEngine_aXorout (s : State) : (resetEngine s).aXorout = State.reset.aXorout := rfl
@[simp] theorem resetEngine_crcReg (s : State) : (resetEngine s).crcReg = State.reset.crcReg := rfl
@[simp] theorem resetEngine_crcOut (s : State) : (resetEngine s).crcOut = State.reset.crcOut := rfl
@[simp] theorem resetEngine_fActive (s : State) : (resetEngine s).fActive = State.reset.fActive := rfl
@[simp] theorem resetEngine_fWc (s : State) : (resetEngine s).fWc = State.reset.fWc := rfl
@[simp] theorem resetEngine_fOrd (s : State) : (resetEngine s).fOrd = State.reset.fOrd := rfl
@[simp] theorem resetEngine_flSum1 (s : State) : (resetEngine s).flSum1 = State.reset.flSum1 := rfl
@[simp] theorem resetEngine_flSum2 (s : State) : (resetEngine s).flSum2 = State.reset.flSum2 := rfl
@[simp] theorem resetEngine_flPart (s : State) : (resetEngine s).flPart = State.reset.flPart := rfl
@[simp] theorem resetEngine_fNpart (s : State) : (resetEngine s).fNpart = State.reset.fNpart := rfl
@[simp] theorem resetEngine_flOut (s : State) : (resetEngine s).flOut = State.reset.flOut := rfl
@[simp] theorem resetEngine_status (s : State) : (resetEngine s).status = State.reset.status := rfl
@[simp] theorem resetEngine_lutValid (s : State) : (resetEngine s).lutValid = State.reset.lutValid := rfl
@[simp] theorem resetEngine_lutPoly (s : State) : (resetEngine s).lutPoly = Config.lutPolyAfterReset s.freeDraws := rfl
@[simp] theorem resetEngine_lutWc (s : State) : (resetEngine s).lutWc = Config.lutWcAfterReset s.freeDraws := rfl
@[simp] theorem resetEngine_lut (s : State) : (resetEngine s).lut = freeTable s.freeDraws := rfl
@[simp] theorem resetEngine_hostStream (s : State) : (resetEngine s).hostStream = s.hostStream := rfl
@[simp] theorem resetEngine_resp (s : State) : (resetEngine s).resp = s.resp := rfl
@[simp] theorem resetEngine_freeDraws (s : State) : (resetEngine s).freeDraws = s.freeDraws + 1 := rfl

/-! `powerOn` -/

@[simp] theorem powerOn_crcPoly (s : State) : (powerOn s).crcPoly = (resetEngine s).crcPoly := rfl
@[simp] theorem powerOn_crcInit (s : State) : (powerOn s).crcInit = (resetEngine s).crcInit := rfl
@[simp] theorem powerOn_crcXorout (s : State) : (powerOn s).crcXorout = (resetEngine s).crcXorout := rfl
@[simp] theorem powerOn_crcCtrl (s : State) : (powerOn s).crcCtrl = (resetEngine s).crcCtrl := rfl
@[simp] theorem powerOn_aActive (s : State) : (powerOn s).aActive = (resetEngine s).aActive := rfl
@[simp] theorem powerOn_aWc (s : State) : (powerOn s).aWc = (resetEngine s).aWc := rfl
@[simp] theorem powerOn_aRefin (s : State) : (powerOn s).aRefin = (resetEngine s).aRefin := rfl
@[simp] theorem powerOn_aRefout (s : State) : (powerOn s).aRefout = (resetEngine s).aRefout := rfl
@[simp] theorem powerOn_aPoly (s : State) : (powerOn s).aPoly = (resetEngine s).aPoly := rfl
@[simp] theorem powerOn_aXorout (s : State) : (powerOn s).aXorout = (resetEngine s).aXorout := rfl
@[simp] theorem powerOn_crcReg (s : State) : (powerOn s).crcReg = (resetEngine s).crcReg := rfl
@[simp] theorem powerOn_crcOut (s : State) : (powerOn s).crcOut = (resetEngine s).crcOut := rfl
@[simp] theorem powerOn_fActive (s : State) : (powerOn s).fActive = (resetEngine s).fActive := rfl
@[simp] theorem powerOn_fWc (s : State) : (powerOn s).fWc = (resetEngine s).fWc := rfl
@[simp] theorem powerOn_fOrd (s : State) : (powerOn s).fOrd = (resetEngine s).fOrd := rfl
@[simp] theorem powerOn_flSum1 (s : State) : (powerOn s).flSum1 = (resetEngine s).flSum1 := rfl
@[simp] theorem powerOn_flSum2 (s : State) : (powerOn s).flSum2 = (resetEngine s).flSum2 := rfl
@[simp] theorem powerOn_flPart (s : State) : (powerOn s).flPart = (resetEngine s).flPart := rfl
@[simp] theorem powerOn_fNpart (s : State) : (powerOn s).fNpart = (resetEngine s).fNpart := rfl
@[simp] theorem powerOn_flOut (s : State) : (powerOn s).flOut = (resetEngine s).flOut := rfl
@[simp] theorem powerOn_status (s : State) : (powerOn s).status = (resetEngine s).status := rfl
@[simp] theorem powerOn_lutValid (s : State) : (powerOn s).lutValid = (resetEngine s).lutValid := rfl
@[simp] theorem powerOn_lutPoly (s : State) : (powerOn s).lutPoly = (resetEngine s).lutPoly := rfl
@[simp] theorem powerOn_lutWc (s : State) : (powerOn s).lutWc = (resetEngine s).lutWc := rfl
@[simp] theorem powerOn_lut (s : State) : (powerOn s).lut = (resetEngine s).lut := rfl
@[simp] theorem powerOn_hostStream (s : State) : (powerOn s).hostStream = (resetEngine s).hostStream := rfl
@[simp] theorem powerOn_resp (s : State) : (powerOn s).resp = none := rfl
@[simp] theorem powerOn_freeDraws (s : State) : (powerOn s).freeDraws = (resetEngine s).freeDraws := rfl

/-! `ensureTable` -/

@[simp] theorem ensureTable_crcPoly (poly : Word) (w : Width) (s : State) : (ensureTable poly w s).crcPoly = s.crcPoly := by
  unfold ensureTable; split <;> rfl
@[simp] theorem ensureTable_crcInit (poly : Word) (w : Width) (s : State) : (ensureTable poly w s).crcInit = s.crcInit := by
  unfold ensureTable; split <;> rfl
@[simp] theorem ensureTable_crcXorout (poly : Word) (w : Width) (s : State) : (ensureTable poly w s).crcXorout = s.crcXorout := by
  unfold ensureTable; split <;> rfl
@[simp] theorem ensureTable_crcCtrl (poly : Word) (w : Width) (s : State) : (ensureTable poly w s).crcCtrl = s.crcCtrl := by
  unfold ensureTable; split <;> rfl
@[simp] theorem ensureTable_aActive (poly : Word) (w : Width) (s : State) : (ensureTable poly w s).aActive = s.aActive := by
  unfold ensureTable; split <;> rfl
@[simp] theorem ensureTable_aWc (poly : Word) (w : Width) (s : State) : (ensureTable poly w s).aWc = s.aWc := by
  unfold ensureTable; split <;> rfl
@[simp] theorem ensureTable_aRefin (poly : Word) (w : Width) (s : State) : (ensureTable poly w s).aRefin = s.aRefin := by
  unfold ensureTable; split <;> rfl
@[simp] theorem ensureTable_aRefout (poly : Word) (w : Width) (s : State) : (ensureTable poly w s).aRefout = s.aRefout := by
  unfold ensureTable; split <;> rfl
@[simp] theorem ensureTable_aPoly (poly : Word) (w : Width) (s : State) : (ensureTable poly w s).aPoly = s.aPoly := by
  unfold ensureTable; split <;> rfl
@[simp] theorem ensureTable_aXorout (poly : Word) (w : Width) (s : State) : (ensureTable poly w s).aXorout = s.aXorout := by
  unfold ensureTable; split <;> rfl
@[simp] theorem ensureTable_crcReg (poly : Word) (w : Width) (s : State) : (ensureTable poly w s).crcReg = s.crcReg := by
  unfold ensureTable; split <;> rfl
@[simp] theorem ensureTable_crcOut (poly : Word) (w : Width) (s : State) : (ensureTable poly w s).crcOut = s.crcOut := by
  unfold ensureTable; split <;> rfl
@[simp] theorem ensureTable_fActive (poly : Word) (w : Width) (s : State) : (ensureTable poly w s).fActive = s.fActive := by
  unfold ensureTable; split <;> rfl
@[simp] theorem ensureTable_fWc (poly : Word) (w : Width) (s : State) : (ensureTable poly w s).fWc = s.fWc := by
  unfold ensureTable; split <;> rfl
@[simp] theorem ensureTable_fOrd (poly : Word) (w : Width) (s : State) : (ensureTable poly w s).fOrd = s.fOrd := by
  unfold ensureTable; split <;> rfl
@[simp] theorem ensureTable_flSum1 (poly : Word) (w : Width) (s : State) : (ensureTable poly w s).flSum1 = s.flSum1 := by
  unfold ensureTable; split <;> rfl
@[simp] theorem ensureTable_flSum2 (poly : Word) (w : Width) (s : State) : (ensureTable poly w s).flSum2 = s.flSum2 := by
  unfold ensureTable; split <;> rfl
@[simp] theorem ensureTable_flPart (poly : Word) (w : Width) (s : State) : (ensureTable poly w s).flPart = s.flPart := by
  unfold ensureTable; split <;> rfl
@[simp] theorem ensureTable_fNpart (poly : Word) (w : Width) (s : State) : (ensureTable poly w s).fNpart = s.fNpart := by
  unfold ensureTable; split <;> rfl
@[simp] theorem ensureTable_flOut (poly : Word) (w : Width) (s : State) : (ensureTable poly w s).flOut = s.flOut := by
  unfold ensureTable; split <;> rfl
@[simp] theorem ensureTable_status (poly : Word) (w : Width) (s : State) : (ensureTable poly w s).status = s.status := by
  unfold ensureTable; split <;> rfl
@[simp] theorem ensureTable_hostStream (poly : Word) (w : Width) (s : State) : (ensureTable poly w s).hostStream = s.hostStream := by
  unfold ensureTable; split <;> rfl
@[simp] theorem ensureTable_resp (poly : Word) (w : Width) (s : State) : (ensureTable poly w s).resp = s.resp := by
  unfold ensureTable; split <;> rfl
@[simp] theorem ensureTable_freeDraws (poly : Word) (w : Width) (s : State) : (ensureTable poly w s).freeDraws = s.freeDraws := by
  unfold ensureTable; split <;> rfl

/-! `takeFletcherByte` -/

@[simp] theorem takeFletcherByte_crcPoly (b : Byte) (s : State) : (takeFletcherByte b s).crcPoly = s.crcPoly := by
  unfold takeFletcherByte; dsimp only; split <;> rfl
@[simp] theorem takeFletcherByte_crcInit (b : Byte) (s : State) : (takeFletcherByte b s).crcInit = s.crcInit := by
  unfold takeFletcherByte; dsimp only; split <;> rfl
@[simp] theorem takeFletcherByte_crcXorout (b : Byte) (s : State) : (takeFletcherByte b s).crcXorout = s.crcXorout := by
  unfold takeFletcherByte; dsimp only; split <;> rfl
@[simp] theorem takeFletcherByte_crcCtrl (b : Byte) (s : State) : (takeFletcherByte b s).crcCtrl = s.crcCtrl := by
  unfold takeFletcherByte; dsimp only; split <;> rfl
@[simp] theorem takeFletcherByte_aActive (b : Byte) (s : State) : (takeFletcherByte b s).aActive = s.aActive := by
  unfold takeFletcherByte; dsimp only; split <;> rfl
@[simp] theorem takeFletcherByte_aWc (b : Byte) (s : State) : (takeFletcherByte b s).aWc = s.aWc := by
  unfold takeFletcherByte; dsimp only; split <;> rfl
@[simp] theorem takeFletcherByte_aRefin (b : Byte) (s : State) : (takeFletcherByte b s).aRefin = s.aRefin := by
  unfold takeFletcherByte; dsimp only; split <;> rfl
@[simp] theorem takeFletcherByte_aRefout (b : Byte) (s : State) : (takeFletcherByte b s).aRefout = s.aRefout := by
  unfold takeFletcherByte; dsimp only; split <;> rfl
@[simp] theorem takeFletcherByte_aPoly (b : Byte) (s : State) : (takeFletcherByte b s).aPoly = s.aPoly := by
  unfold takeFletcherByte; dsimp only; split <;> rfl
@[simp] theorem takeFletcherByte_aXorout (b : Byte) (s : State) : (takeFletcherByte b s).aXorout = s.aXorout := by
  unfold takeFletcherByte; dsimp only; split <;> rfl
@[simp] theorem takeFletcherByte_crcReg (b : Byte) (s : State) : (takeFletcherByte b s).crcReg = s.crcReg := by
  unfold takeFletcherByte; dsimp only; split <;> rfl
@[simp] theorem takeFletcherByte_crcOut (b : Byte) (s : State) : (takeFletcherByte b s).crcOut = s.crcOut := by
  unfold takeFletcherByte; dsimp only; split <;> rfl
@[simp] theorem takeFletcherByte_fActive (b : Byte) (s : State) : (takeFletcherByte b s).fActive = s.fActive := by
  unfold takeFletcherByte; dsimp only; split <;> rfl
@[simp] theorem takeFletcherByte_fWc (b : Byte) (s : State) : (takeFletcherByte b s).fWc = s.fWc := by
  unfold takeFletcherByte; dsimp only; split <;> rfl
@[simp] theorem takeFletcherByte_fOrd (b : Byte) (s : State) : (takeFletcherByte b s).fOrd = s.fOrd := by
  unfold takeFletcherByte; dsimp only; split <;> rfl
@[simp] theorem takeFletcherByte_flOut (b : Byte) (s : State) : (takeFletcherByte b s).flOut = s.flOut := by
  unfold takeFletcherByte; dsimp only; split <;> rfl
@[simp] theorem takeFletcherByte_status (b : Byte) (s : State) : (takeFletcherByte b s).status = s.status := by
  unfold takeFletcherByte; dsimp only; split <;> rfl
@[simp] theorem takeFletcherByte_lutValid (b : Byte) (s : State) : (takeFletcherByte b s).lutValid = s.lutValid := by
  unfold takeFletcherByte; dsimp only; split <;> rfl
@[simp] theorem takeFletcherByte_lutPoly (b : Byte) (s : State) : (takeFletcherByte b s).lutPoly = s.lutPoly := by
  unfold takeFletcherByte; dsimp only; split <;> rfl
@[simp] theorem takeFletcherByte_lutWc (b : Byte) (s : State) : (takeFletcherByte b s).lutWc = s.lutWc := by
  unfold takeFletcherByte; dsimp only; split <;> rfl
@[simp] theorem takeFletcherByte_lut (b : Byte) (s : State) : (takeFletcherByte b s).lut = s.lut := by
  unfold takeFletcherByte; dsimp only; split <;> rfl
@[simp] theorem takeFletcherByte_hostStream (b : Byte) (s : State) : (takeFletcherByte b s).hostStream = s.hostStream := by
  unfold takeFletcherByte; dsimp only; split <;> rfl
@[simp] theorem takeFletcherByte_resp (b : Byte) (s : State) : (takeFletcherByte b s).resp = s.resp := by
  unfold takeFletcherByte; dsimp only; split <;> rfl
@[simp] theorem takeFletcherByte_freeDraws (b : Byte) (s : State) : (takeFletcherByte b s).freeDraws = s.freeDraws := by
  unfold takeFletcherByte; dsimp only; split <;> rfl

/-! `State.reset` -/

@[simp] theorem reset_crcPoly : State.reset.crcPoly = 0x00000007#32 := rfl
@[simp] theorem reset_crcInit : State.reset.crcInit = 0#32 := rfl
@[simp] theorem reset_crcXorout : State.reset.crcXorout = 0#32 := rfl
@[simp] theorem reset_crcCtrl : State.reset.crcCtrl = { width := .w8, refin := false, refout := false } := rfl
@[simp] theorem reset_aActive : State.reset.aActive = false := rfl
@[simp] theorem reset_aWc : State.reset.aWc = .w8 := rfl
@[simp] theorem reset_aRefin : State.reset.aRefin = false := rfl
@[simp] theorem reset_aRefout : State.reset.aRefout = false := rfl
@[simp] theorem reset_aPoly : State.reset.aPoly = 0#32 := rfl
@[simp] theorem reset_aXorout : State.reset.aXorout = 0#32 := rfl
@[simp] theorem reset_crcReg : State.reset.crcReg = 0#32 := rfl
@[simp] theorem reset_crcOut : State.reset.crcOut = 0#32 := rfl
@[simp] theorem reset_fActive : State.reset.fActive = false := rfl
@[simp] theorem reset_fWc : State.reset.fWc = .w8 := rfl
@[simp] theorem reset_fOrd : State.reset.fOrd = false := rfl
@[simp] theorem reset_flSum1 : State.reset.flSum1 = 0#32 := rfl
@[simp] theorem reset_flSum2 : State.reset.flSum2 = 0#32 := rfl
@[simp] theorem reset_flPart : State.reset.flPart = 0#32 := rfl
@[simp] theorem reset_fNpart : State.reset.fNpart = 0#3 := rfl
@[simp] theorem reset_flOut : State.reset.flOut = 0#64 := rfl
@[simp] theorem reset_status : State.reset.status = 0#32 := rfl
@[simp] theorem reset_lutValid : State.reset.lutValid = false := rfl
@[simp] theorem reset_lutPoly : State.reset.lutPoly = 0#32 := rfl
@[simp] theorem reset_lutWc : State.reset.lutWc = 0#2 := rfl
@[simp] theorem reset_lut : State.reset.lut = unspecifiedTable := rfl
@[simp] theorem reset_hostStream : State.reset.hostStream = [] := rfl
@[simp] theorem reset_resp : State.reset.resp = none := rfl
@[simp] theorem reset_freeDraws : State.reset.freeDraws = 0 := rfl

@[simp] theorem unspecifiedTable_length : unspecifiedTable.length = 256 := List.length_replicate

end Sys2Proof.Machine
end

