-- ==== Sys2Proof/Laws/Ops.lean ====
section
/-! SUPPORT. One lemma per shared operation that says once everything it can do; the statements' provers cite these
instead of unfolding the operation. -/

namespace Sys2Proof.Machine

/-! Operand forms. -/

@[simp] theorem byteOperand?_setWidth (b : Byte) : byteOperand? (b.setWidth 32) = some b := by
  have h1 : (b.setWidth 32).extractLsb' 8 24 = 0#24 := by
    apply BitVec.eq_of_getLsbD_eq
    intro i _
    rw [BitVec.getLsbD_extractLsb', BitVec.getLsbD_setWidth, BitVec.getLsbD_of_ge b (8 + i) (by omega)]
    simp
  have h2 : (b.setWidth 32).extractLsb' 0 8 = b := by
    apply BitVec.eq_of_getLsbD_eq
    intro i hi
    rw [BitVec.getLsbD_extractLsb', BitVec.getLsbD_setWidth]
    simp [hi, show i < 32 by omega]
  rw [byteOperand?, if_pos h1, h2]

/-- An operand field is a byte, or it is at least 256 and has no byte (30_encoding.md R74). -/
theorem byteOperand?_cases (opd : Word) :
    (∃ b : Byte, opd = b.setWidth 32 ∧ byteOperand? opd = some b) ∨ (256 ≤ opd.toNat ∧ byteOperand? opd = none) := by
  by_cases h : opd.toNat < 256
  · refine .inl ⟨BitVec.ofNat 8 opd.toNat, ?_, ?_⟩
    · apply BitVec.eq_of_toNat_eq
      simp; omega
    · have : opd = (BitVec.ofNat 8 opd.toNat).setWidth 32 := by
        apply BitVec.eq_of_toNat_eq
        simp; omega
      conv_lhs => rw [this]
      exact byteOperand?_setWidth _
  · refine .inr ⟨by omega, ?_⟩
    rw [byteOperand?, if_neg]
    intro h0
    have := congrArg BitVec.toNat h0
    simp [BitVec.extractLsb'_toNat, Nat.shiftRight_eq_div_pow] at this
    have hl := opd.isLt
    omega

theorem byteOperand?_none {opd : Word} (h : 256 ≤ opd.toNat) : byteOperand? opd = none := by
  rcases byteOperand?_cases opd with ⟨b, rfl, _⟩ | ⟨_, h'⟩
  · have := b.isLt
    simp at h; omega
  · exact h'

/-- The register map names a register exactly for the assigned numbers (10_state.md R39). -/
theorem regOfNumber?_isSome : ∀ r : BitVec 8, (regOfNumber? r).isSome = WellFormed.assignedNumber r := by
  decide +kernel

theorem presetOfNumber?_isSome : ∀ p : BitVec 8, (presetOfNumber? p).isSome = decide (p.toNat ≤ 2) := by
  decide +kernel

@[simp] theorem ctrlOfWord?_ctrlWord (c : CrcCtrl) : ctrlOfWord? (ctrlWord c) = some c := by
  rcases c with ⟨w, a, b⟩
  revert a b
  cases w <;> decide

/-- A value WR may write to CRC_CTRL is read back as it was written; any other has no fields (10_state.md R24). -/
theorem ctrlOfWord?_cases (v : Word) :
    (v.toNat < 16 ∧ v.toNat % 4 ≠ 3 ∧ ∃ c, ctrlOfWord? v = some c ∧ ctrlWord c = v) ∨
      (¬(v.toNat < 16 ∧ v.toNat % 4 ≠ 3) ∧ ctrlOfWord? v = none) := by
  by_cases h : v.toNat < 16
  · have key : ∀ k : Fin 16,
        ((k : Nat) % 4 ≠ 3 ∧ ∃ c, ctrlOfWord? (BitVec.ofNat 32 k) = some c ∧ ctrlWord c = BitVec.ofNat 32 k) ∨
          ((k : Nat) % 4 = 3 ∧ ctrlOfWord? (BitVec.ofNat 32 k) = none) := by
      intro k
      have : (k : Nat) % 4 = 3 ∧ ctrlOfWord? (BitVec.ofNat 32 k) = none ∨
          (k : Nat) % 4 ≠ 3 ∧ (ctrlOfWord? (BitVec.ofNat 32 k)).map ctrlWord = some (BitVec.ofNat 32 k) := by
        revert k; decide
      rcases this with h | ⟨h, hm⟩
      · exact .inr h
      · obtain ⟨c, hc, hw⟩ := Option.map_eq_some_iff.1 hm
        exact .inl ⟨h, c, hc, hw⟩
    have hv : BitVec.ofNat 32 v.toNat = v := by simp
    have := key ⟨v.toNat, h⟩
    simp only [hv] at this
    rcases this with ⟨h3, c, hc, hw⟩ | ⟨h3, hn⟩
    · exact .inl ⟨h, h3, c, hc, hw⟩
    · exact .inr ⟨fun h' => h'.2 h3, hn⟩
  · refine .inr ⟨fun h' => h h'.1, ?_⟩
    rw [ctrlOfWord?, if_neg]
    intro h0
    have := congrArg BitVec.toNat h0
    simp [BitVec.extractLsb'_toNat, Nat.shiftRight_eq_div_pow] at this
    have hl := v.isLt
    omega

/-! Registers. -/

/-- Everything WR can do: write one of the three unchecked staged registers, write CRC_CTRL with a legal value, or
nothing (43_engine_control.md R172). -/
theorem writeReg?_cases (r : BitVec 8) (v : Word) (s : State) :
    writeReg? r v s = none ∨ writeReg? r v s = some { s with crcPoly := v } ∨
      writeReg? r v s = some { s with crcInit := v } ∨ writeReg? r v s = some { s with crcXorout := v } ∨
      ∃ c, ctrlOfWord? v = some c ∧ writeReg? r v s = some { s with crcCtrl := c } := by
  unfold writeReg?
  split <;> simp
  cases h : ctrlOfWord? v <;> simp

/-! The hidden table. -/

/-- Ensuring a table in a coherent cache writes the valid bit, the key and the cells and nothing else, and afterwards
every cell holds the table function's value (41_crc_table.md R134). -/
theorem ensureTable_eq (poly : Word) (w : Width) {s : State} (hc : TableCoherent s) :
    ∃ cells : List Word,
      ensureTable poly w s = { s with lutValid := true, lutPoly := poly, lutWc := w.code, lut := cells } ∧
        ∀ i : Byte, cells.getD i.toNat 0#32 = tableEntry poly w i := by
  unfold ensureTable
  by_cases h : tableCached poly w s = true
  · rw [if_pos h]
    simp only [tableCached, Bool.and_eq_true, beq_iff_eq] at h
    obtain ⟨⟨hv, hpoly⟩, hwc⟩ := h
    obtain ⟨w', hw', _, hcell⟩ := hc hv
    have hww : w = w' := Width.code_injective (hwc.symm.trans hw')
    subst hww
    refine ⟨s.lut, ?_, fun i => ?_⟩
    · rw [← hv, ← hpoly, ← hwc]
    · rw [← hpoly]; exact hcell i
  · rw [if_neg h]
    exact ⟨buildTable poly w, rfl, buildTable_getD poly w⟩

/-- Every cell of an ensured table holds the table function's value. -/
theorem lutCell_ensureTable (poly : Word) (w : Width) {s : State} (hc : TableCoherent s) (i : Byte) :
    lutCell i (ensureTable poly w s) = tableEntry poly w i := by
  obtain ⟨cells, he, hcells⟩ := ensureTable_eq poly w hc
  rw [he]; exact hcells i

/-- Ensuring a table for a polynomial that fits keeps the cache coherent (10_state.md R38). -/
theorem ensureTable_coherent {poly : Word} {w : Width} {s : State} (hc : TableCoherent s)
    (hp : poly.toNat < 2 ^ w.bits) : TableCoherent (ensureTable poly w s) := by
  obtain ⟨cells, he, hcells⟩ := ensureTable_eq poly w hc
  rw [he]
  exact fun _ => ⟨w, rfl, hp, hcells⟩

/-- Ensuring a table keeps the 256 cells. -/
theorem ensureTable_length (poly : Word) (w : Width) {s : State} (h : LutHas256Cells s) :
    LutHas256Cells (ensureTable poly w s) := by
  unfold ensureTable LutHas256Cells at *
  split
  · exact h
  · simp

/-- Ensuring a table changes nothing else. -/
theorem withoutCache_ensureTable (poly : Word) (w : Width) (s : State) :
    withoutCache (ensureTable poly w s) = withoutCache s := by
  unfold ensureTable; split <;> rfl

@[simp] theorem freeTable_length (draw : Nat) : (freeTable draw).length = 256 := by simp [freeTable]

/-! The Fletcher session. -/

/-- The byte that completes a word goes with it into the sums (42_fletcher.md R154). -/
theorem takeFletcherByte_complete (b : Byte) {s : State} (h : (s.fNpart + 1#3).toNat = s.fWc.bytes) :
    takeFletcherByte b s =
      { s with
        flSum1 := addM s.fWc s.flSum1 (s.flPart ||| byteInWord s.fWc s.fOrd s.fNpart.toNat b)
        flSum2 := addM s.fWc s.flSum2
          (addM s.fWc s.flSum1 (s.flPart ||| byteInWord s.fWc s.fOrd s.fNpart.toNat b))
        flPart := 0#32
        fNpart := 0#3 } := by
  unfold takeFletcherByte
  rw [if_pos h]
  rfl

/-- A byte that leaves the word incomplete is placed in it (42_fletcher.md R154). -/
theorem takeFletcherByte_incomplete (b : Byte) {s : State} (h : (s.fNpart + 1#3).toNat ≠ s.fWc.bytes) :
    takeFletcherByte b s =
      { s with
        flPart := s.flPart ||| byteInWord s.fWc s.fOrd s.fNpart.toNat b
        fNpart := s.fNpart + 1#3 } := by
  unfold takeFletcherByte
  rw [if_neg h]

/-- In an in-range session F_NPART counts up without wrapping (10_state.md R31). -/
theorem toNat_fNpart_succ {s : State} (h : FletcherInRange s) : (s.fNpart + 1#3).toNat = s.fNpart.toNat + 1 := by
  have hn := h.2.2.1
  have hby : s.fWc.bytes ≤ 4 := by cases s.fWc <;> decide
  rw [BitVec.toNat_add]
  have : (1#3).toNat = 1 := rfl
  omega

/-- Taking a byte into an in-range session leaves an in-range session (10_state.md R31). -/
theorem takeFletcherByte_inRange (b : Byte) {s : State} (h : FletcherInRange s) :
    FletcherInRange (takeFletcherByte b s) := by
  obtain ⟨h1, h2, hn, hp⟩ := h
  have hnp := toNat_fNpart_succ (s := s) ⟨h1, h2, hn, hp⟩
  unfold takeFletcherByte
  dsimp only
  split
  · refine ⟨addM_lt _ _ _, addM_lt _ _ _, ?_, Nat.two_pow_pos _⟩
    show 0 < s.fWc.bytes
    omega
  · refine ⟨h1, h2, ?_, Width.or_lt hp (byteInWord_lt _ _ _ _ hn)⟩
    show (s.fNpart + 1#3).toNat < s.fWc.bytes
    omega

/-! Outcomes. -/

/-- Everything a meaning can answer: a rejection of the state it got, or a success. No meaning faults or refuses. -/
theorem exec_cases (i : Instr) (s : State) :
    (∃ e, exec i s = .next (reject e s)) ∨ ∃ d u, exec i s = .next (answer d u) := by
  cases i <;>
    simp only [exec, execNop, execRd, execWr, execRst, execClrerr, execCrcPreset, execCrcStart, execCrcByteB,
      execCrcByteT, execCrcFinal, execTabBuild, execTabRead, execFlStart, execFlByte, execFlFinal, respond, raise] <;>
    repeat' first
      | exact .inr ⟨_, _, rfl⟩
      | exact .inl ⟨_, rfl⟩
      | split

end Sys2Proof.Machine
end

