-- ==== Sys2Proof/Laws/PerInstr.lean ====
section
/-! SUPPORT. The family EncodedWord: for every command, its word has the opcode the table gives it (30_encoding.md R76)
and a reserved field of 0 (R75). One lemma per constructor. -/

namespace Sys2Proof.Laws.EncodedWord

/-- The opcode column of 30_encoding.md R76. -/
def opcodeOf : Instr → BitVec 8
  | .nop => 0x00
  | .rd _ => 0x01
  | .wr _ _ => 0x02
  | .rst => 0x03
  | .clrerr => 0x04
  | .crcPreset _ => 0x10
  | .crcStart => 0x11
  | .crcByteB _ => 0x12
  | .crcByteT _ => 0x13
  | .crcFinal => 0x14
  | .tabBuild => 0x18
  | .tabRead _ => 0x19
  | .flStart _ _ => 0x20
  | .flByte _ => 0x21
  | .flFinal => 0x22

def Statement (i : Instr) : Prop := opcField (encode i) = opcodeOf i ∧ rsvField (encode i) = 0#16

theorem nop : Statement .nop := by simp [Statement, encode, opcodeOf]
theorem rd (r : BitVec 8) : Statement (.rd r) := by simp [Statement, encode, opcodeOf]
theorem wr (r : BitVec 8) (imm : Word) : Statement (.wr r imm) := by simp [Statement, encode, opcodeOf]
theorem rst : Statement .rst := by simp [Statement, encode, opcodeOf]
theorem clrerr : Statement .clrerr := by simp [Statement, encode, opcodeOf]
theorem crcPreset (p : BitVec 8) : Statement (.crcPreset p) := by simp [Statement, encode, opcodeOf]
theorem crcStart : Statement .crcStart := by simp [Statement, encode, opcodeOf]
theorem crcByteB (opd : Word) : Statement (.crcByteB opd) := by simp [Statement, encode, opcodeOf]
theorem crcByteT (opd : Word) : Statement (.crcByteT opd) := by simp [Statement, encode, opcodeOf]
theorem crcFinal : Statement .crcFinal := by simp [Statement, encode, opcodeOf]
theorem tabBuild : Statement .tabBuild := by simp [Statement, encode, opcodeOf]
theorem tabRead (opd : Word) : Statement (.tabRead opd) := by simp [Statement, encode, opcodeOf]
theorem flStart (wc : BitVec 2) (ord : Bool) : Statement (.flStart wc ord) := by simp [Statement, encode, opcodeOf]
theorem flByte (opd : Word) : Statement (.flByte opd) := by simp [Statement, encode, opcodeOf]
theorem flFinal : Statement .flFinal := by simp [Statement, encode, opcodeOf]

end Sys2Proof.Laws.EncodedWord
end

