-- ==== Sys2Proof/Laws/Step.lean ====
section
/-! SUPPORT. What one step can do, and the induction over a run. -/

namespace Sys2Proof.Machine

/-- Everything a step can do: wait, reset by power-on, run the decoded command, or reject the word
(20_memory.md R60, 30_encoding.md R77, 70_reset_and_hazards.md R230). -/
theorem step_cases (s : State) :
    (s.hostStream = [] ∧ step s = .next s) ∨
    (∃ rest, s.hostStream = .powerOnReset :: rest ∧ step s = .next (powerOn { s with hostStream := rest })) ∨
    (∃ c rest i, s.hostStream = .command c :: rest ∧ decode c = .ok i ∧ step s = exec i { s with hostStream := rest }) ∨
    (∃ c rest e, s.hostStream = .command c :: rest ∧ decode c = .error e ∧
      step s = .next (reject .illegal { s with hostStream := rest })) := by
  unfold step acceptEvent?
  cases hs : s.hostStream with
  | nil => exact .inl ⟨rfl, rfl⟩
  | cons ev rest =>
    cases ev with
    | powerOnReset => exact .inr (.inl ⟨rest, rfl, rfl⟩)
    | command c =>
      cases hd : decode c with
      | ok i => exact .inr (.inr (.inl ⟨c, rest, i, rfl, hd, by simp [hd]⟩))
      | error e => exact .inr (.inr (.inr ⟨c, rest, e, rfl, hd, by simp [hd, raise]⟩))

/-- One step, then the rest of the run. -/
theorem run_succ (n : Nat) {s t : State} (h : step s = .next t) :
    Host.Core.run Sys2Proof.core (n + 1) s = Host.Core.run Sys2Proof.core n t := by
  have hc : Host.Core.step Sys2Proof.core s = .next t := h
  simp only [Host.Core.run, hc]

/-- A run of one step more begins with a step. -/
theorem run_succ_inv {n : Nat} {s t : State} (h : Host.Core.run Sys2Proof.core (n + 1) s = .next t) :
    ∃ u, step s = .next u ∧ Host.Core.run Sys2Proof.core n u = .next t := by
  cases hs : step s with
  | next u => exact ⟨u, rfl, by rw [← run_succ n hs]; exact h⟩
  | fault r => cases r
  | refused r =>
    have hc : Host.Core.step Sys2Proof.core s = .refused r := hs
    simp only [Host.Core.run, hc] at h
    cases h

/-- What holds of the first state and is kept by every step holds after any number of steps. -/
theorem run_keeps {P : State → Prop} (keeps : ∀ s t, P s → step s = .next t → P t) (n : Nat) {s t : State} (hs : P s)
    (h : Host.Core.run Sys2Proof.core n s = .next t) : P t := by
  induction n generalizing s with
  | zero => cases h; exact hs
  | succ n ih =>
    obtain ⟨u, hu, hr⟩ := run_succ_inv h
    exact ih (keeps s u hs hu) hr

end Sys2Proof.Machine
end

