-- ==== Sys2Proof/Tests/Slice0.lean ====
section
/-! SUPPORT. Tests. Expected results are the spec's: the words of 30_encoding.md R80, the vectors of
95_test_vectors.md (named in each comment), the examples of the command rules. Then, for every statement with
hypotheses, a named witness that meets them. -/

namespace Sys2Proof.Tests

open Sys2Proof.Machine

/-! ## WellFormed: an ill-formed term for each check -/

theorem test_wellFormed_rd : ¬(Instr.rd 0x09#8).WellFormed ∧ ¬(Instr.rd 0x15#8).WellFormed ∧
    ¬(Instr.rd 0x1E#8).WellFormed ∧ ¬(Instr.rd 0x20#8).WellFormed ∧ (Instr.rd 0x14#8).WellFormed := by decide
theorem test_wellFormed_wr : ¬(Instr.wr 0x04#8 5#32).WellFormed ∧ (Instr.wr 0x03#8 5#32).WellFormed := by decide
theorem test_wellFormed_crcPreset : ¬(Instr.crcPreset 3#8).WellFormed ∧ (Instr.crcPreset 2#8).WellFormed := by decide
theorem test_wellFormed_flStart : ¬(Instr.flStart 3#2 false).WellFormed ∧ (Instr.flStart 2#2 true).WellFormed := by
  decide

/-! ## Decoding: one word per constructor, written out from the patterns of 30_encoding.md R76, fields OPC, F, RSV, OPD -/

theorem test_decode_nop :
    decode (0b00000000#8 ++ 0b00000000#8 ++ 0b0000000000000000#16 ++ 0x00000000#32) = .ok .nop := by decide
theorem test_decode_rd :
    decode (0b00000001#8 ++ 0b00010100#8 ++ 0b0000000000000000#16 ++ 0x00000000#32) = .ok (.rd 0x14#8) := by decide
theorem test_decode_wr :
    decode (0b00000010#8 ++ 0b00000001#8 ++ 0b0000000000000000#16 ++ 0xFFFFFFFF#32) =
      .ok (.wr 0x01#8 0xFFFFFFFF#32) := by decide
theorem test_decode_rst :
    decode (0b00000011#8 ++ 0b00000000#8 ++ 0b0000000000000000#16 ++ 0x00000000#32) = .ok .rst := by decide
theorem test_decode_clrerr :
    decode (0b00000100#8 ++ 0b00000000#8 ++ 0b0000000000000000#16 ++ 0x00000000#32) = .ok .clrerr := by decide
theorem test_decode_crcPreset :
    decode (0b00010000#8 ++ 0b00000010#8 ++ 0b0000000000000000#16 ++ 0x00000000#32) = .ok (.crcPreset 2#8) := by decide
theorem test_decode_crcStart :
    decode (0b00010001#8 ++ 0b00000000#8 ++ 0b0000000000000000#16 ++ 0x00000000#32) = .ok .crcStart := by decide
theorem test_decode_crcByteB :
    decode (0b00010010#8 ++ 0b00000000#8 ++ 0b0000000000000000#16 ++ 0x00000131#32) = .ok (.crcByteB 0x131#32) := by
  decide
theorem test_decode_crcByteT :
    decode (0b00010011#8 ++ 0b00000000#8 ++ 0b0000000000000000#16 ++ 0x00000031#32) = .ok (.crcByteT 0x31#32) := by
  decide
theorem test_decode_crcFinal :
    decode (0b00010100#8 ++ 0b00000000#8 ++ 0b0000000000000000#16 ++ 0x00000000#32) = .ok .crcFinal := by decide
theorem test_decode_tabBuild :
    decode (0b00011000#8 ++ 0b00000000#8 ++ 0b0000000000000000#16 ++ 0x00000000#32) = .ok .tabBuild := by decide
theorem test_decode_tabRead :
    decode (0b00011001#8 ++ 0b00000000#8 ++ 0b0000000000000000#16 ++ 0x00000080#32) = .ok (.tabRead 0x80#32) := by decide
theorem test_decode_flStart :
    decode (0b00100000#8 ++ 0b00000110#8 ++ 0b0000000000000000#16 ++ 0x00000000#32) = .ok (.flStart 2#2 true) := by
  decide
theorem test_decode_flByte :
    decode (0b00100001#8 ++ 0b00000000#8 ++ 0b0000000000000000#16 ++ 0x00000061#32) = .ok (.flByte 0x61#32) := by decide
theorem test_decode_flFinal :
    decode (0b00100010#8 ++ 0b00000000#8 ++ 0b0000000000000000#16 ++ 0x00000000#32) = .ok .flFinal := by decide

/-- 30_encoding.md R77: the four checks in order, and FL.START's reserved width code and F[7:3]. -/
theorem test_decode_rejects :
    decode 0x05FF000100000001#64 = .error .opcode ∧ decode 0xFF00000000000000#64 = .error .opcode ∧
    decode 0x0009000100000001#64 = .error .reserved ∧ decode 0x0300800000000000#64 = .error .reserved ∧
    decode 0x0115000000000001#64 = .error .function ∧ decode 0x0204000000000005#64 = .error .function ∧
    decode 0x1003000000000000#64 = .error .function ∧ decode 0x2003000000000000#64 = .error .function ∧
    decode 0x2008000000000000#64 = .error .function ∧ decode 0x1201000000000100#64 = .error .function ∧
    decode 0x011F000000000001#64 = .error .operand ∧ decode 0x2001000000000001#64 = .error .operand := by decide

theorem test_decodeTableWord :
    decodeTableWord 64 0x0105000000000000 = some (.rd 0x05#8) ∧ decodeTableWord 64 0x0500000000000000 = none := by
  decide

/-! ## Single steps -/

/-- A field of the state an outcome goes on with. -/
def field {α : Type} (f : State → α) : Host.Outcome State Fault Refusal → Option α
  | .next s => some (f s)
  | .fault _ => none
  | .refused _ => none

/-- The response as numbers. -/
def response (s : State) : Option (Nat × Nat) := s.resp.map fun r => (r.code.toNat, r.data.toNat)

/-- The response to a command word. -/
def answerTo (c : Command) (s : State) : Option (Nat × Nat) := (field response (step (offerCommand c s))).join

/-- An open CRC session. -/
def crcSession (w : Width) (poly : Word) (refin : Bool) (reg : Word) : State :=
  { State.reset with aActive := true, aWc := w, aPoly := poly, aRefin := refin, crcReg := reg }

/-- An open Fletcher session. -/
def fletcherSession (w : Width) (ord : Bool) (sum1 sum2 part : Word) (npart : BitVec 3) : State :=
  { State.reset with
    fActive := true, fWc := w, fOrd := ord, flSum1 := sum1, flSum2 := sum2, flPart := part, fNpart := npart }

/-- K1, E1. -/
theorem test_nop : answerTo 0x0000000000000000#64 State.reset = some (0, 0) ∧
    answerTo 0x0000000000000001#64 State.reset = some (3, 0) := by decide
/-- E1: STATUS is 308 after the error. -/
theorem test_nop_illegal_status :
    field State.status (step (offerCommand 0x0000000000000001#64 State.reset)) = some 0x308#32 := by decide
/-- K2, E5. -/
theorem test_rd : answerTo 0x0100000000000000#64 State.reset = some (0, 7) ∧
    answerTo 0x0109000000000000#64 State.reset = some (3, 0) := by decide
/-- K10 and P3 step 6: the view registers. -/
theorem test_rd_views :
    answerTo 0x0106000000000000#64
      { crcSession .w32 0x04C11DB7#32 true 0xFFFFFFFF#32 with aRefout := true } = some (0, 0x8000000E) ∧
    answerTo 0x0113000000000000#64 (fletcherSession .w16 false 0x6261#32 0x6261#32 0x63#32 1#3) =
      some (0, 0x80000011) := by decide
/-- K5: CRC_CTRL = E is 32 bits with both reflections. -/
theorem test_wr : field State.crcCtrl (step (offerCommand 0x020300000000000E#64 State.reset)) =
    some { width := .w32, refin := true, refout := true } := by decide
/-- E11, E12, K6. -/
theorem test_wr_values : answerTo 0x0203000000000010#64 State.reset = some (3, 0) ∧
    answerTo 0x020300000000000F#64 State.reset = some (3, 0) ∧
    field State.crcInit (step (offerCommand 0x02010000FFFFFFFF#64 State.reset)) = some 0xFFFFFFFF#32 := by decide
/-- K7: an open session is gone and the staged configuration is back. -/
theorem test_rst : field (fun s => (s.aActive, s.crcPoly, s.status, response s))
    (step (offerCommand 0x0300000000000000#64
      { crcSession .w16 0x1021#32 false 0xFFFF#32 with crcPoly := 0x1021#32, status := 0x112#32 })) =
    some (false, 7#32, 0#32, some (0, 0)) := by decide
/-- K8. -/
theorem test_clrerr : field (fun s => (s.status, response s))
    (step (offerCommand 0x0400000000000000#64 { State.reset with status := 0x216#32 })) =
    some (0#32, some (0, 0)) := by decide
/-- 40_crc_bitloop.md R104, the example; E13. -/
theorem test_crcPreset :
    field (fun s => (s.crcPoly, s.crcInit, ctrlWord s.crcCtrl)) (step (offerCommand 0x1001000000000000#64 State.reset)) =
      some (0x1021#32, 0xFFFF#32, 1#32) ∧
    answerTo 0x1003000000000000#64 State.reset = some (3, 0) := by decide
/-- 40_crc_bitloop.md R105, the example: the response after CRC.PRESET CRC32. -/
theorem test_crcStart : answerTo 0x1100000000000000#64
    { State.reset with
      crcPoly := 0x04C11DB7#32, crcInit := 0xFFFFFFFF#32, crcXorout := 0xFFFFFFFF#32,
      crcCtrl := { width := .w32, refin := true, refout := true } } = some (0, 0xFFFFFFFF) := by decide
/-- E15: poly ≥ 2^8. -/
theorem test_crcStart_range :
    answerTo 0x1100000000000000#64 { State.reset with crcPoly := 0x107#32 } = some (1, 0) := by decide
/-- T1 (40_crc_bitloop.md R106, the example), and B17's first step with reflection. -/
theorem test_crcByteB :
    answerTo 0x1200000000000031#64 (crcSession .w8 0x07#32 false 0#32) = some (0, 0x97) ∧
    answerTo 0x1200000000000031#64 (crcSession .w32 0x04C11DB7#32 true 0xFFFFFFFF#32) = some (0, 0x1208C43E) := by
  decide +kernel
/-- E19, E21: E_TYPE comes before E_SEQ. -/
theorem test_crcByteB_errors : answerTo 0x1200000000000100#64 State.reset = some (2, 0) ∧
    answerTo 0x1200000000000041#64 State.reset = some (4, 0) := by decide
/-- The first table step of the CRC-32 preset (95_test_vectors.md 2.2), and the second byte of preset 1. -/
theorem test_crcByteT :
    answerTo 0x1300000000000031#64 (crcSession .w32 0x04C11DB7#32 true 0xFFFFFFFF#32) = some (0, 0x1208C43E) ∧
    answerTo 0x1300000000000032#64 (crcSession .w16 0x1021#32 false 0xC782#32) = some (0, 0x3DBA) := by
  decide +kernel
/-- B29's order (XOR, then reflect) on a register whose two orders differ: B7, and S3's last line. -/
theorem test_crcFinal :
    answerTo 0x1400000000000000#64 { crcSession .w8 0x07#32 false 0#32 with aXorout := 1#32, aRefout := true } =
      some (0, 0x80) ∧
    answerTo 0x1400000000000000#64
      { crcSession .w32 0x04C11DB7#32 true 0x9B63D02C#32 with aXorout := 0xFFFFFFFF#32, aRefout := true } =
      some (0, 0xCBF43926) := by decide +kernel
/-- X4, and the first build from reset. -/
theorem test_tabBuild : answerTo 0x1800000000000000#64 { State.reset with crcPoly := 0x1FF#32 } = some (1, 0) ∧
    answerTo 0x1800000000000000#64 State.reset = some (0, 0) := by decide
/-- X1, X6. -/
theorem test_tabRead : answerTo 0x19000000000000FF#64 State.reset = some (0, 0xF3) ∧
    answerTo 0x1900000000000100#64 { State.reset with crcPoly := 0x1FF#32 } = some (2, 0) := by decide +kernel
/-- X3 with another key in the cache: the table is rebuilt. -/
theorem test_tabRead_rebuilds : answerTo 0x1900000000000080#64
    { State.reset with
      crcPoly := 0x04C11DB7#32, crcCtrl := { width := .w32, refin := true, refout := true },
      lutValid := true, lutPoly := 7#32, lutWc := 0#2, lut := buildTable 7#32 .w8 } = some (0, 0x690CE0EE) := by
  decide +kernel
/-- L1, L4. -/
theorem test_flStart : answerTo 0x2004000000000000#64 State.reset = some (0, 0) ∧
    answerTo 0x2008000000000000#64 State.reset = some (3, 0) := by decide
/-- The second byte of "abcde" in Fletcher-32 (95_test_vectors.md 2.3), and P5 step 15: MSB first places 0x65 on top. -/
theorem test_flByte :
    answerTo 0x2100000000000062#64 (fletcherSession .w16 false 0#32 0#32 0x61#32 1#3) = some (0, 0x62616261) ∧
    field State.flPart (step (offerCommand 0x2100000000000065#64
      (fletcherSession .w32 true 0x61626364#32 0x61626364#32 0#32 0#3))) = some 0x65000000#32 := by decide
/-- The fourth byte of "abcde" wraps the second sum: 0x12925 mod 0xFFFF; and L7. -/
theorem test_flByte_wraps :
    answerTo 0x2100000000000064#64 (fletcherSession .w16 false 0x6261#32 0x6261#32 0x63#32 1#3) =
      some (0, 0x2926C6C4) ∧
    answerTo 0x2100000000000001#64 State.reset = some (4, 0) := by decide
/-- FL.FINAL over "abcde" leaves the session alone (95_test_vectors.md 2.3, the last row). -/
theorem test_flFinal : field (fun s => (response s, s.flPart, s.flSum1, s.flSum2))
    (step (offerCommand 0x2200000000000000#64 (fletcherSession .w16 false 0xC6C4#32 0x2926#32 0x65#32 1#3))) =
    some (some (0, 0xF04FC729), 0x65#32, 0xC6C4#32, 0x2926#32) := by decide
/-- 60_exceptions.md R207, the example: E_SEQ, then E_RANGE. -/
theorem test_status : statusAfter .range (statusAfter .seq 0#32) = 0x112#32 := by decide
/-- A power-on reset ends a session and delivers no response (70_reset_and_hazards.md R230). -/
theorem test_powerOnReset : field (fun s => (s.aActive, s.resp))
    (step { crcSession .w8 7#32 false 1#32 with
      hostStream := [.powerOnReset], resp := some { code := 0#8, data := 1#64 } }) = some (false, none) := by decide

/-! ## Witnesses: states and operands that meet the hypotheses of the statements -/

/-- Both sessions open, the table of the CRC session cached, and the last response an error. -/
def busy : State :=
  { fletcherSession .w16 false 0x6261#32 0x6261#32 0x63#32 1#3 with
    aActive := true, aPoly := 0x07#32, crcReg := 0x97#32, status := 0x204#32,
    lutValid := true, lutPoly := 0x07#32, lutWc := 0#2, lut := buildTable 0x07#32 .w8,
    resp := some { code := 2#8, data := 0#64 } }

theorem busy_tableCoherent : TableCoherent busy :=
  fun _ => ⟨.w8, rfl, by decide, fun i => buildTable_getD 0x07#32 .w8 i⟩

/-- The invariants' premise (EveryStepKeepsTheInvariants, TableCacheIsInvisible, FinalResultsFitTheirWidth,
CrcSessionComputesTheWholeBuffer), in a state that is not the reset state. -/
theorem witness_inv : busy.Inv where
  crcSessionFits := by intro _; decide
  crcIdleAtReset := by intro h; cases h
  fletcherInRange := by unfold FletcherInRange; decide
  fletcherIdleAtReset := by intro h; cases h
  statusLegal := by unfold StatusLegal; decide
  lutHas256Cells := buildTable_length 0x07#32 .w8
  tableCoherent := busy_tableCoherent
  responseLegal := by intro r h; cases h; decide

/-- The reset state satisfies the single invariants CRC.BYTET, TAB.BUILD and TAB.READ rest on, with nothing cached. -/
theorem witness_tableCoherent_empty : TableCoherent (crcSession .w32 0x04C11DB7#32 true 0xFFFFFFFF#32) := by
  intro h; cases h

/-- ResetStateIsTheTable: a state that holds the reset values and is not State.reset itself. -/
theorem witness_atReset : AtReset { State.reset with lutPoly := 5#32, hostStream := [.powerOnReset] } := by
  constructor <;> decide

/-- DecodeOfEncode at the edges of each operand's range. -/
theorem witness_wellFormed : (Instr.rd 0x00#8).WellFormed ∧ (Instr.rd 0x08#8).WellFormed ∧ (Instr.rd 0x10#8).WellFormed ∧
    (Instr.rd 0x1F#8).WellFormed ∧ (Instr.wr 0x00#8 0xFFFFFFFF#32).WellFormed ∧ (Instr.crcPreset 0#8).WellFormed ∧
    (Instr.flStart 0#2 true).WellFormed ∧ (Instr.crcByteB 0xFFFFFFFF#32).WellFormed := by decide

/-- OpcodeRowsNeverOverlap: a row matches a word. -/
theorem witness_opcodeRow : ∃ a ∈ opcodeTable, 0x0105000000000000#64 &&& opcodeMask = a.value :=
  ⟨_, List.mem_cons_of_mem _ (List.mem_cons_self ..), by decide⟩

/-- EachCommandReportsItsFirstError: a word and a state for each error and for success. -/
theorem witness_expectedError :
    expectedError 0x0500000000000000#64 State.reset = some .illegal ∧
    expectedError 0x0203000000000003#64 State.reset = some .illegal ∧
    expectedError 0x1900000000000100#64 { State.reset with crcPoly := 0x1FF#32 } = some .type ∧
    expectedError 0x1200000000000041#64 State.reset = some .seq ∧
    expectedError 0x2200000000000000#64 State.reset = some .seq ∧
    expectedError 0x1100000000000000#64 { State.reset with crcInit := 0x100#32 } = some .range ∧
    expectedError 0x1800000000000000#64 { State.reset with crcPoly := 0x100#32 } = some .range ∧
    expectedError 0x1100000000000000#64 { State.reset with crcInit := 0xFF#32 } = none := by decide

/-- RejectedCommandChangesOnlyStatus and the first clause of RaisedErrorIsRecordedInStatus. -/
theorem witness_rejected : ∃ t r, step { State.reset with hostStream := [.command 0x0500000000000000#64] } = .next t ∧
    t.resp = some r ∧ r.code ≠ 0#8 :=
  ⟨reject .illegal State.reset, { code := 3#8, data := 0#64 }, rfl, rfl, by decide⟩

/-- RaisedErrorIsRecordedInStatus, its last clause (a success that keeps STATUS, and one that clears it), and
ReadsAndFinalsAreIdempotent for RD. -/
theorem witness_success : (∃ t d, exec (.rd 0x1F#8) busy = .next t ∧ t.resp = okResponse d) ∧
    (∃ t d, exec .clrerr busy = .next t ∧ t.resp = okResponse d) := ⟨⟨_, _, rfl, rfl⟩, ⟨_, _, rfl, rfl⟩⟩

/-- ReadsAndFinalsAreIdempotent for TAB.READ, CRC.FINAL and FL.FINAL. -/
theorem witness_idempotent : (∃ t d, exec (.tabRead 0xFF#32) busy = .next t ∧ t.resp = okResponse d) ∧
    (∃ t, exec .crcFinal busy = .next t ∧ busy.aActive = true) ∧
    (∃ t, exec .flFinal busy = .next t ∧ busy.fActive = true) :=
  ⟨⟨_, _, rfl, rfl⟩, ⟨_, rfl, rfl⟩, ⟨_, rfl, rfl⟩⟩

/-- StepRunsTheDecodedCommand, both clauses; the stream premise of every statement about a step. -/
theorem witness_stream :
    ({ State.reset with hostStream := [.command 0x1100000000000000#64] } : State).hostStream =
      .command 0x1100000000000000#64 :: [] ∧
    decode 0x1100000000000000#64 = .ok .crcStart ∧ decodeTableWord 64 0x1100000000000000 = some .crcStart :=
  ⟨rfl, by decide, by decide⟩

/-- StepWaitsWithNoCommand and PowerOnResetsTheEngine. -/
theorem witness_other_events : State.reset.hostStream = [] ∧
    ({ busy with hostStream := [.powerOnReset] } : State).hostStream = .powerOnReset :: [] := ⟨rfl, rfl⟩

/-- For a witness of DecodesAs: a word with this opcode that passes the checks, and one that fails them. -/
def decodesOne (opc : BitVec 8) (good bad : Command) : Bool :=
  opcField good == opc && (decode good).isOk && opcField bad == opc && !(decode bad).isOk

/-- Every DecodesAs, for each command. -/
theorem witness_decodesAs :
    decodesOne 0x00#8 0x0000000000000000#64 0x0000000000000001#64 = true ∧
    decodesOne 0x01#8 0x0114000000000000#64 0x0115000000000000#64 = true ∧
    decodesOne 0x02#8 0x0203000000000003#64 0x0204000000000000#64 = true ∧
    decodesOne 0x03#8 0x0300000000000000#64 0x0300800000000000#64 = true ∧
    decodesOne 0x04#8 0x0400000000000000#64 0x0400000000000001#64 = true ∧
    decodesOne 0x10#8 0x1002000000000000#64 0x1003000000000000#64 = true ∧
    decodesOne 0x11#8 0x1100000000000000#64 0x1101000000000000#64 = true ∧
    decodesOne 0x12#8 0x1200000000000100#64 0x1201000000000100#64 = true ∧
    decodesOne 0x13#8 0x1300000000000041#64 0x1300000100000041#64 = true ∧
    decodesOne 0x14#8 0x1400000000000000#64 0x1400000000000001#64 = true ∧
    decodesOne 0x18#8 0x1800000000000000#64 0x1800000000000001#64 = true ∧
    decodesOne 0x19#8 0x1900000000000080#64 0x1980000000000080#64 = true ∧
    decodesOne 0x20#8 0x2006000000000000#64 0x2007000000000000#64 = true ∧
    decodesOne 0x21#8 0x2100000000000061#64 0x2100000100000061#64 = true ∧
    decodesOne 0x22#8 0x2200000000000000#64 0x2200000000000001#64 = true :=
  ⟨by decide, by decide, by decide, by decide, by decide, by decide, by decide, by decide, by decide, by decide, by decide, by decide, by decide, by decide, by decide⟩

/-- The value clauses of WrWritesAStagedRegister and the number clauses of RD, WR and CRC.PRESET, at their edges. -/
theorem witness_numbers :
    ((0x0E#32).toNat < 16 ∧ (0x0E#32).toNat % 4 ≠ 3) ∧ ¬((0x10#32).toNat < 16 ∧ (0x10#32).toNat % 4 ≠ 3) ∧
    ¬((0x0F#32).toNat < 16 ∧ (0x0F#32).toNat % 4 ≠ 3) ∧ 0x03 < (0x04#8).toNat ∧ 2 < (0x03#8).toNat ∧
    ¬((0x09#8).toNat ≤ 0x08 ∨ (0x10 ≤ (0x09#8).toNat ∧ (0x09#8).toNat ≤ 0x14) ∨ (0x09#8).toNat = 0x1F) ∧
    256 ≤ (0x100#32).toNat := by decide

/-- The range premises of CRC.START, TAB.BUILD and TAB.READ: the largest value that fits and the smallest that does not,
at each width. -/
theorem witness_ranges : (0xFF#32).toNat < 2 ^ Width.w8.bits ∧ 2 ^ Width.w8.bits ≤ (0x100#32).toNat ∧
    (0xFFFF#32).toNat < 2 ^ Width.w16.bits ∧ 2 ^ Width.w16.bits ≤ (0x10000#32).toNat ∧
    (0xFFFFFFFF#32).toNat < 2 ^ Width.w32.bits := by decide

/-- The session premises and examples of CRC.BYTEB, CRC.BYTET and CRC.FINAL. -/
theorem witness_crcSessions :
    (crcSession .w8 0x07#32 false 0#32).aActive = true ∧ State.reset.aActive = false ∧
    (crcSession .w16 0x1021#32 false 0x29B1#32).aXorout = 0#32 ∧
    (crcSession .w16 0x1021#32 false 0x29B1#32).aRefout = false ∧
    TableCoherent (crcSession .w32 0x04C11DB7#32 true 0xFFFFFFFF#32) ∧ CrcSessionFits busy ∧ TableCoherent busy :=
  ⟨rfl, rfl, rfl, rfl, witness_tableCoherent_empty, witness_inv.crcSessionFits, busy_tableCoherent⟩

/-- FL.BYTE of 0x64 completing the second word of "abcde" in Fletcher-32: every premise of its clause together. -/
theorem witness_flByte : ∃ s : State, s.fActive = true ∧ FletcherInRange s ∧ 2 = s.fWc.bits / 8 ∧
    1 = (if s.fOrd then 2 - 1 - s.fNpart.toNat else s.fNpart.toNat) ∧
    0x6463#32 = s.flPart ||| (0x64#8).setWidth 32 <<< (8 * 1) ∧
    (0xC6C4#32).toNat = (s.flSum1.toNat + (0x6463#32).toNat) % (2 ^ s.fWc.bits - 1) ∧
    (0x2926#32).toNat = (s.flSum2.toNat + (0xC6C4#32).toNat) % (2 ^ s.fWc.bits - 1) ∧ s.fNpart.toNat + 1 = 2 :=
  ⟨fletcherSession .w16 false 0x6261#32 0x6261#32 0x63#32 1#3, by unfold FletcherInRange; decide⟩

/-- FL.BYTE with a word that stays incomplete (most-significant byte first), and with a word of all ones. -/
theorem witness_flByte_other :
    (FletcherInRange (fletcherSession .w32 true 0#32 0#32 0#32 0#3) ∧
      0x65000000#32 = 0#32 ||| (0x65#8).setWidth 32 <<< (8 * (4 - 1 - (0#3).toNat)) ∧ (0#3).toNat + 1 ≠ 4) ∧
    (FletcherInRange (fletcherSession .w8 false 0xFE#32 0#32 0#32 0#3) ∧ (0xFF#32).toNat = 2 ^ Width.w8.bits - 1) ∧
    State.reset.fActive = false := by
  unfold FletcherInRange; decide

/-- FL.FINAL over "abcde" in Fletcher-32: every premise of its clause together, with an incomplete word. -/
theorem witness_flFinal : ∃ s : State, s.fActive = true ∧ FletcherInRange s ∧ 0 < s.fNpart.toNat ∧
    (0xC729#32).toNat = (s.flSum1.toNat + s.flPart.toNat) % (2 ^ s.fWc.bits - 1) ∧
    (0xF04F#32).toNat = (s.flSum2.toNat + (0xC729#32).toNat) % (2 ^ s.fWc.bits - 1) ∧
    0xF04FC729#64 = (0xF04F#32).setWidth 64 <<< s.fWc.bits ||| (0xC729#32).setWidth 64 :=
  ⟨fletcherSession .w16 false 0xC6C4#32 0x2926#32 0x65#32 1#3, by unfold FletcherInRange; decide⟩

/-- WordAssemblyFollowsTheByteOrder, AppendedZeroByteChangesTheSumOnlyAtABoundary (both clauses) and
PolynomialZeroClearsTheRegister. -/
theorem witness_buffers : [0x61#8, 0x62#8].length = Width.w16.bytes ∧ [0x61#8].length % Width.w16.bytes ≠ 0 ∧
    [0x61#8, 0x62#8].length % Width.w16.bytes = 0 ∧ [0x5A#8, 0x5A#8].length = Width.w16.bits / 8 := by decide

/-- A CRC-8 session stream with data bytes by both units, a rejected word and an FL.START between, and one command left
over. -/
def crcStream : State :=
  { busy with hostStream := commands (encode .crcStart :: [0x1200000000000031#64, 0x0500000000000000#64,
      0x1300000000000032#64, 0x2001000000000000#64] ++ [encode .crcFinal]) ++ [.command 0#64] }

/-- CrcSessionComputesTheWholeBuffer. -/
theorem witness_crcStream : crcStream.Inv ∧ crcStream.crcPoly.toNat < 2 ^ crcStream.crcCtrl.width.bits ∧
    crcStream.crcInit.toNat < 2 ^ crcStream.crcCtrl.width.bits ∧
    crcStream.crcXorout.toNat < 2 ^ crcStream.crcCtrl.width.bits ∧
    (∀ c ∈ [0x1200000000000031#64, 0x0500000000000000#64, 0x1300000000000032#64, 0x2001000000000000#64],
      startsOrResetsCrc c = false) :=
  ⟨{ witness_inv with }, by show 7 < 256; decide, by show 0 < 256; decide, by show 0 < 256; decide, by
    intro c hc
    fin_cases hc <;> decide⟩

/-- EmptyCrcIsTheFinalisedInitialValue: the words that may stand between, with a stream of them. -/
theorem witness_emptyStream :
    (∀ c ∈ [0x2001000000000000#64, 0x0500000000000000#64, 0x1200000000000100#64],
      startsOrResetsCrc c = false ∧ crcDataByte? c = none) ∧
    ({ busy with hostStream := commands (encode .crcStart :: [0x0500000000000000#64] ++ [encode .crcFinal]) } :
      State).crcPoly.toNat < 2 ^ busy.crcCtrl.width.bits :=
  ⟨by intro c hc; fin_cases hc <;> decide, by show 7 < 256; decide⟩

/-- FletcherSessionComputesTheWholeBuffer. -/
theorem witness_fletcherStream :
    (∀ c ∈ [0x2100000000000061#64, 0x1100000000000000#64, 0x2003000000000000#64, 0x2200000000000000#64],
      startsOrResetsFletcher c = false) ∧
    ({ busy with hostStream := commands (encode (.flStart Width.w32.code true) :: [0x2100000000000061#64] ++
      [encode .flFinal]) } : State).hostStream =
        commands (encode (.flStart Width.w32.code true) :: [0x2100000000000061#64] ++ [encode .flFinal]) ++ [] :=
  ⟨by intro c hc; fin_cases hc <;> decide, rfl⟩

/-- The frames and the writers: a command of each group that goes on to a next state. -/
theorem witness_frames : (∃ t, exec .nop busy = .next t) ∧ (∃ t, exec (.wr 0x03#8 0x0E#32) busy = .next t) ∧
    (∃ t, exec .tabBuild busy = .next t) ∧ (∃ t, exec (.flByte 0x64#32) busy = .next t) ∧
    startsOrResetsCrc 0x0200000000008005#64 = false ∧ crcDataByte? 0x0200000000008005#64 = none ∧
    decode 0x0200000000008005#64 = .ok (.wr 0x00#8 0x8005#32) :=
  ⟨⟨_, rfl⟩, ⟨_, rfl⟩, ⟨_, rfl⟩, ⟨_, rfl⟩, by decide, by decide, by decide⟩

/-- OnlyResetClosesASession: a step that closes both sessions. -/
theorem witness_closes : ∃ t, step { busy with hostStream := [.powerOnReset] } = .next t ∧ busy.aActive = true ∧
    t.aActive = false ∧ busy.fActive = true ∧ t.fActive = false := ⟨_, rfl, rfl, rfl, rfl, rfl⟩

/-- TableCacheIsInvisible: two states that meet the invariants and differ in the table. -/
theorem witness_sameButCache :
    State.Inv { busy with lutValid := false } ∧ SameButCache busy { busy with lutValid := false } ∧
      busy ≠ { busy with lutValid := false } :=
  ⟨{ witness_inv with tableCoherent := by intro h; cases h }, rfl, fun h => by
    have := congrArg State.lutValid h
    cases this⟩

/-- FletcherCommandsSeeOnlyTheirSession: two different states with one Fletcher session. -/
theorem witness_sameFletcherSession :
    SameFletcherSession busy { busy with crcReg := 0#32, status := 0#32 } ∧ opcField 0x2100000000000064#64 = 0x21#8 :=
  ⟨⟨rfl, rfl, rfl, rfl, rfl, rfl, rfl⟩, by decide⟩

end Sys2Proof.Tests
end

section
/-! SUPPORT. Proof of the statement about bit reflection (00_scope.md R10). -/

namespace Sys2Proof.Proofs.Scope

open Sys2Proof.Machine

/-- Settles O15: each clause is the law that says which bits its reflection has; a reflected register has no bit
at or above its width, so it fits. -/
theorem reflectionReversesBits : Obligations.ReflectionReversesBits := by
  refine ⟨fun b i hi => ?reflect8, fun v w i hi => ?reflectW, fun v w => reflectW_lt v w⟩
  case reflect8 => exact getLsbD_reflect8 b i (by omega)
  case reflectW => rw [getLsbD_reflectW, decide_eq_true hi, Bool.true_and]

end Sys2Proof.Proofs.Scope
end

section
/-! SUPPORT. What a successful command does, as a relation, and the inversion of `exec` and of `step` into it: the
proofs about the state read off these cases instead of unfolding the meanings. -/

namespace Sys2Proof.Proofs.Inversion

open Sys2Proof.Machine

/-- `Succeeds s i d u`: in state `s` command `i` passes its checks, its response data is `d`, and `u` is the state it
leaves, but for the response port. -/
inductive Succeeds (s : State) : Instr → DWord → State → Prop
  | nop : Succeeds s .nop 0#64 s
  | rd {r : BitVec 8} {reg : Reg} (hr : regOfNumber? r = some reg) : Succeeds s (.rd r) (readReg reg s) s
  | wr {r : BitVec 8} {v : Word} {u : State} (hw : writeReg? r v s = some u) : Succeeds s (.wr r v) 0#64 u
  | rst : Succeeds s .rst 0#64 (resetEngine s)
  | clrerr : Succeeds s .clrerr 0#64 { s with status := 0#32 }
  | crcPreset {p : BitVec 8} {cfg : Word × Word × Word × CrcCtrl} (hp : presetOfNumber? p = some cfg) :
      Succeeds s (.crcPreset p) 0#64 (loadPreset cfg s)
  | crcStart (hf : stagedFits s = true) : Succeeds s .crcStart (s.crcInit.setWidth 64) (openCrcSession s)
  | crcByteB {opd : Word} {b : Byte} {r : Word} (hb : byteOperand? opd = some b) (ha : s.aActive = true)
      (hr : r = crcShift8 s.crcReg (crcIn b s.aRefin) s.aPoly s.aWc) :
      Succeeds s (.crcByteB opd) (r.setWidth 64) { s with crcReg := r }
  | crcByteT {opd : Word} {b : Byte} {r : Word} (hb : byteOperand? opd = some b) (ha : s.aActive = true)
      (hr : r = combineEntry s.crcReg
        (lutCell (tableIndex s.crcReg (crcIn b s.aRefin) s.aWc) (ensureTable s.aPoly s.aWc s)) s.aWc) :
      Succeeds s (.crcByteT opd) (r.setWidth 64) { ensureTable s.aPoly s.aWc s with crcReg := r }
  | crcFinal {out : Word} (ha : s.aActive = true) (ho : out = crcFinal s.crcReg s.aXorout s.aRefout s.aWc) :
      Succeeds s .crcFinal (out.setWidth 64) { s with crcOut := out }
  | tabBuild (hf : stagedPolyFits s = true) :
      Succeeds s .tabBuild 0#64 (ensureTable s.crcPoly s.crcCtrl.width s)
  | tabRead {opd : Word} {j : Byte} (hj : byteOperand? opd = some j) (hf : stagedPolyFits s = true) :
      Succeeds s (.tabRead opd) ((lutCell j (ensureTable s.crcPoly s.crcCtrl.width s)).setWidth 64)
        (ensureTable s.crcPoly s.crcCtrl.width s)
  | flStart {wc : BitVec 2} {ord : Bool} {w : Width} (hw : Width.ofCode? wc = some w) :
      Succeeds s (.flStart wc ord) 0#64 (openFletcherSession w ord s)
  | flByte {opd : Word} {b : Byte} (hb : byteOperand? opd = some b) (ha : s.fActive = true) :
      Succeeds s (.flByte opd)
        (packSums (takeFletcherByte b s).fWc (takeFletcherByte b s).flSum2 (takeFletcherByte b s).flSum1)
        (takeFletcherByte b s)
  | flFinal (ha : s.fActive = true) : Succeeds s .flFinal (fletcherResult s) { s with flOut := fletcherResult s }

/-- `Answers s i t`: command `i` run in state `s` leaves `t`, by rejection or by success (60_exceptions.md R206,
R208). -/
inductive Answers (s : State) (i : Instr) : State → Prop
  | rejected (e : Err) : Answers s i (reject e s)
  | succeeded {d : DWord} {u : State} (h : Succeeds s i d u) : Answers s i (answer d u)

theorem answers_of_raise {s t : State} {i : Instr} {e : Err} (h : raise e s = .next t) : Answers s i t := by
  cases h; exact .rejected e

theorem Succeeds.answers {s t u : State} {i : Instr} {d : DWord} (hu : Succeeds s i d u)
    (h : respond d u = .next t) : Answers s i t := by
  cases h; exact .succeeded hu

/-- Everything `exec` can do, command by command along the checks of its meaning. -/
theorem answers_of_exec {s t : State} {i : Instr} (h : exec i s = .next t) : Answers s i t := by
  cases i with
  | nop => exact Succeeds.nop.answers h
  | rd r =>
    simp only [exec, execRd] at h
    split at h
    · next hr => exact (Succeeds.rd hr).answers h
    · exact answers_of_raise h
  | wr r imm =>
    simp only [exec, execWr] at h
    split at h
    · next hw => exact (Succeeds.wr hw).answers h
    · exact answers_of_raise h
  | rst => exact Succeeds.rst.answers h
  | clrerr => exact Succeeds.clrerr.answers h
  | crcPreset p =>
    simp only [exec, execCrcPreset] at h
    split at h
    · next hp => exact (Succeeds.crcPreset hp).answers h
    · exact answers_of_raise h
  | crcStart =>
    simp only [exec, execCrcStart] at h
    split at h
    · next hf => exact (Succeeds.crcStart hf).answers h
    · exact answers_of_raise h
  | crcByteB opd =>
    simp only [exec, execCrcByteB] at h
    split at h
    · exact answers_of_raise h
    · next hb =>
      split at h
      · next ha => exact (Succeeds.crcByteB hb ha rfl).answers h
      · exact answers_of_raise h
  | crcByteT opd =>
    simp only [exec, execCrcByteT] at h
    split at h
    · exact answers_of_raise h
    · next hb =>
      split at h
      · next ha => exact (Succeeds.crcByteT hb ha rfl).answers h
      · exact answers_of_raise h
  | crcFinal =>
    simp only [exec, execCrcFinal] at h
    split at h
    · next ha => exact (Succeeds.crcFinal ha rfl).answers h
    · exact answers_of_raise h
  | tabBuild =>
    simp only [exec, execTabBuild] at h
    split at h
    · next hf => exact (Succeeds.tabBuild hf).answers h
    · exact answers_of_raise h
  | tabRead opd =>
    simp only [exec, execTabRead] at h
    split at h
    · exact answers_of_raise h
    · next hj =>
      split at h
      · next hf => exact (Succeeds.tabRead hj hf).answers h
      · exact answers_of_raise h
  | flStart wc ord =>
    simp only [exec, execFlStart] at h
    split at h
    · next hw => exact (Succeeds.flStart hw).answers h
    · exact answers_of_raise h
  | flByte opd =>
    simp only [exec, execFlByte] at h
    split at h
    · exact answers_of_raise h
    · next hb =>
      split at h
      · next ha => exact (Succeeds.flByte hb ha).answers h
      · exact answers_of_raise h
  | flFinal =>
    simp only [exec, execFlFinal] at h
    split at h
    · next ha => exact (Succeeds.flFinal ha).answers h
    · exact answers_of_raise h

/-- A step on a waiting power-on reset (70_reset_and_hazards.md R230). -/
theorem step_powerOnReset {s : State} {rest : List HostEvent} (hs : s.hostStream = .powerOnReset :: rest) :
    step s = .next (powerOn { s with hostStream := rest }) := by
  simp only [step, acceptEvent?, hs]

/-- A step on a word that decodes (20_memory.md R60). -/
theorem step_of_decode_ok {s : State} {c : Command} {i : Instr} {rest : List HostEvent}
    (hs : s.hostStream = .command c :: rest) (hd : decode c = .ok i) :
    step s = exec i { s with hostStream := rest } := by
  simp only [step, acceptEvent?, hs, hd]

/-- A step on a word that fails a check of the decoder (30_encoding.md R77). -/
theorem step_of_decode_error {s : State} {c : Command} {e : DecodeError} {rest : List HostEvent}
    (hs : s.hostStream = .command c :: rest) (hd : decode c = .error e) :
    step s = .next (reject .illegal { s with hostStream := rest }) := by
  simp only [step, acceptEvent?, hs, hd, raise]

/-- Everything a step on a command word can do: reject the word, or run the command it decodes to with success. -/
theorem step_command_cases {s t : State} {c : Command} {rest : List HostEvent}
    (hs : s.hostStream = .command c :: rest) (h : step s = .next t) :
    (∃ e, t = reject e { s with hostStream := rest }) ∨
      ∃ i d u, decode c = .ok i ∧ Succeeds { s with hostStream := rest } i d u ∧ t = answer d u := by
  cases hd : decode c with
  | error e =>
    rw [step_of_decode_error hs hd] at h
    cases h; exact .inl ⟨.illegal, rfl⟩
  | ok i =>
    rw [step_of_decode_ok hs hd] at h
    cases answers_of_exec h with
    | rejected e => exact .inl ⟨e, rfl⟩
    | succeeded hu => exact .inr ⟨i, _, _, rfl, hu, rfl⟩

/-- Everything a step can do: wait, reset by power-on, or answer a command word. -/
theorem step_next_cases {s t : State} (h : step s = .next t) :
    (s.hostStream = [] ∧ t = s) ∨
      (∃ rest, s.hostStream = .powerOnReset :: rest ∧ t = powerOn { s with hostStream := rest }) ∨
      ∃ c rest, s.hostStream = .command c :: rest ∧
        ((∃ e, t = reject e { s with hostStream := rest }) ∨
          ∃ i d u, decode c = .ok i ∧ Succeeds { s with hostStream := rest } i d u ∧ t = answer d u) := by
  cases hs : s.hostStream with
  | nil =>
    simp only [step, acceptEvent?, hs] at h
    cases h; exact .inl ⟨rfl, rfl⟩
  | cons ev rest =>
    cases ev with
    | powerOnReset =>
      rw [step_powerOnReset hs] at h
      cases h; exact .inr (.inl ⟨rest, rfl, rfl⟩)
    | command c => exact .inr (.inr ⟨c, rest, rfl, step_command_cases hs h⟩)

end Sys2Proof.Proofs.Inversion
end

section
/-! SUPPORT. Proofs of the statements about the invariants (10_state.md R25, R26, R31, R37, R38, R42): the reset state
meets them, each operation keeps them, so every step does. -/

namespace Sys2Proof.Proofs.Invariants

open Sys2Proof.Machine Sys2Proof.Proofs.Inversion

/-! STATUS. -/

/-- A recorded error is the one LAST_ERR names, whatever was recorded before (60_exceptions.md R207). -/
theorem lastErr_statusAfter (e : Err) (status : Word) : lastErr (statusAfter e status) = e.code.setWidth 4 := by
  apply BitVec.eq_of_getLsbD_eq
  intro i hi
  have hmask : ∀ i : Fin 4, (~~~0x00000F00#32).getLsbD (8 + i) = false := by decide
  rw [lastErr, BitVec.getLsbD_extractLsb', statusAfter, BitVec.getLsbD_or, BitVec.getLsbD_and, hmask ⟨i, hi⟩]
  simp [hi, show 8 + i < 32 by omega]

/-- A recorded error has its sticky bit set (60_exceptions.md R207). -/
theorem getLsbD_statusAfter_code (e : Err) (status : Word) :
    (statusAfter e status).getLsbD e.code.toNat = true := by
  cases e <;> simp [statusAfter, Err.code]

/-- Recording an error sets no reserved bit (10_state.md R37). -/
theorem statusAfter_reserved (e : Err) {status : Word} (h : status &&& 0xFFFFF0E1#32 = 0#32) :
    statusAfter e status &&& 0xFFFFF0E1#32 = 0#32 := by
  have hbit : (1#32 <<< e.code.toNat) &&& 0xFFFFF0E1#32 = 0#32 := by cases e <;> decide
  have hfield : (e.code.setWidth 32 <<< 8) &&& 0xFFFFF0E1#32 = 0#32 := by cases e <;> decide
  calc statusAfter e status &&& 0xFFFFF0E1#32
      = (status &&& 0xFFFFF0E1#32 ||| (1#32 <<< e.code.toNat) &&& 0xFFFFF0E1#32) &&& ~~~0x00000F00#32 |||
          (e.code.setWidth 32 <<< 8) &&& 0xFFFFF0E1#32 := by
        rw [statusAfter, BitVec.and_or_distrib_right, BitVec.and_assoc, BitVec.and_comm (~~~_), ← BitVec.and_assoc,
          BitVec.and_or_distrib_right]
    _ = 0#32 := by rw [h, hbit, hfield]; rfl

theorem statusLegal_zero : StatusLegal 0#32 := ⟨by decide, .inl rfl⟩

theorem statusAfter_legal (e : Err) {status : Word} (h : StatusLegal status) : StatusLegal (statusAfter e status) := by
  refine ⟨statusAfter_reserved e h.1, .inr ?_⟩
  have hcode : 1 ≤ e.code.toNat ∧ e.code.toNat ≤ 4 := by cases e <;> decide
  have hlast : (lastErr (statusAfter e status)).toNat = e.code.toNat := by
    rw [lastErr_statusAfter]; cases e <;> rfl
  rw [hlast]
  exact ⟨hcode.1, hcode.2, getLsbD_statusAfter_code e status⟩

/-! The reset values. -/

theorem atReset_reset : AtReset State.reset := by constructor <;> rfl

theorem atReset_resetEngine (s : State) : AtReset (resetEngine s) := { atReset_reset with }

theorem atReset_answer {s : State} (h : AtReset s) (d : DWord) : AtReset (answer d s) := { h with }

theorem atReset_powerOn (s : State) : AtReset (powerOn s) := { atReset_resetEngine s with }

/-- The codes of the table of 10_state.md R44 name the width 8. -/
theorem atReset_widths {s : State} (h : AtReset s) : s.aWc = .w8 ∧ s.fWc = .w8 :=
  ⟨Width.code_injective h.aWc, Width.code_injective h.fWc⟩

/-- A state with the reset values meets the invariants, whatever the cells of its table (10_state.md R44). -/
theorem inv_of_atReset {s : State} (h : AtReset s) (hcells : LutHas256Cells s) (hresp : ResponseLegal s) : s.Inv := by
  obtain ⟨haWc, hfWc⟩ := atReset_widths h
  exact {
    crcSessionFits := fun ha => absurd (ha.symm.trans h.aActive) (by decide)
    crcIdleAtReset := fun _ => ⟨haWc, h.aRefin, h.aRefout, h.aPoly, h.aXorout, h.crcReg, h.crcOut⟩
    fletcherInRange := by
      rw [FletcherInRange, h.flSum1, h.flSum2, h.flPart, h.fNpart, hfWc]
      decide
    fletcherIdleAtReset := fun _ => ⟨hfWc, h.fOrd, h.flSum1, h.flSum2, h.flPart, h.fNpart, h.flOut⟩
    statusLegal := h.status ▸ statusLegal_zero
    lutHas256Cells := hcells
    tableCoherent := fun hv => absurd (hv.symm.trans h.lutValid) (by decide)
    responseLegal := hresp }

theorem inv_resetEngine {s : State} (h : s.Inv) : (resetEngine s).Inv :=
  inv_of_atReset (atReset_resetEngine s) (freeTable_length _) h.responseLegal

theorem inv_powerOn (s : State) : (powerOn s).Inv :=
  inv_of_atReset (atReset_powerOn s) (freeTable_length _) nofun

/-! Each operation keeps the invariants. -/

theorem inv_withHostStream {s : State} (h : s.Inv) (events : List HostEvent) :
    State.Inv { s with hostStream := events } := { h with }

theorem inv_answer {s : State} (h : s.Inv) (d : DWord) : (answer d s).Inv :=
  { h with responseLegal := by rintro r ⟨⟩; exact ⟨Nat.zero_le 4, fun hne => absurd rfl hne⟩ }

theorem inv_reject {s : State} (h : s.Inv) (e : Err) : (reject e s).Inv :=
  { h with
    statusLegal := statusAfter_legal e h.statusLegal
    responseLegal := by rintro r ⟨⟩; exact ⟨by cases e <;> decide, fun _ => rfl⟩ }

/-- WR writes staged registers only, of which no invariant speaks (43_engine_control.md R172). -/
theorem inv_writeReg {s u : State} (h : s.Inv) {r : BitVec 8} {v : Word} (hw : writeReg? r v s = some u) : u.Inv := by
  rcases writeReg?_cases r v s with hn | hp | hi | hx | ⟨c, -, hc⟩
  · rw [hw] at hn; cases hn
  · rw [hw] at hp; cases hp; exact { h with }
  · rw [hw] at hi; cases hi; exact { h with }
  · rw [hw] at hx; cases hx; exact { h with }
  · rw [hw] at hc; cases hc; exact { h with }

theorem stagedFits_iff (s : State) : stagedFits s = true ↔
    s.crcPoly.toNat < 2 ^ s.crcCtrl.width.bits ∧ s.crcInit.toNat < 2 ^ s.crcCtrl.width.bits ∧
      s.crcXorout.toNat < 2 ^ s.crcCtrl.width.bits := by
  simp [stagedFits, and_assoc]

theorem stagedPolyFits_iff (s : State) : stagedPolyFits s = true ↔ s.crcPoly.toNat < 2 ^ s.crcCtrl.width.bits := by
  simp [stagedPolyFits]

theorem inv_openCrcSession {s : State} (h : s.Inv) (hf : stagedFits s = true) : (openCrcSession s).Inv := by
  obtain ⟨hpoly, hinit, hxor⟩ := (stagedFits_iff s).1 hf
  exact { h with crcSessionFits := fun _ => ⟨hpoly, hxor, hinit⟩, crcIdleAtReset := nofun }

theorem inv_ensureTable {s : State} (h : s.Inv) {poly : Word} {w : Width} (hp : poly.toNat < 2 ^ w.bits) :
    (ensureTable poly w s).Inv := by
  have hcoherent := ensureTable_coherent h.tableCoherent hp
  have hcells := ensureTable_length poly w h.lutHas256Cells
  obtain ⟨cells, he, -⟩ := ensureTable_eq poly w h.tableCoherent
  rw [he] at hcoherent hcells ⊢
  exact { h with tableCoherent := hcoherent, lutHas256Cells := hcells }

/-- A value that fits the open session may be put in its register (10_state.md R26). -/
theorem inv_withCrcReg {s : State} (h : s.Inv) (ha : s.aActive = true) {r : Word} (hr : r.toNat < 2 ^ s.aWc.bits) :
    State.Inv { s with crcReg := r } := by
  obtain ⟨hpoly, hxor, -⟩ := h.crcSessionFits ha
  exact { h with
    crcSessionFits := fun _ => ⟨hpoly, hxor, hr⟩
    crcIdleAtReset := fun hidle => absurd (ha.symm.trans hidle) (by decide) }

theorem combineEntry_lt {w : Width} (r : Word) {entry : Word} (he : entry.toNat < 2 ^ w.bits) :
    (combineEntry r entry w).toNat < 2 ^ w.bits :=
  Width.xor_lt (w.and_mask_lt _) he

theorem tableEntry_lt {poly : Word} {w : Width} (hp : poly.toNat < 2 ^ w.bits) (i : Byte) :
    (tableEntry poly w i).toNat < 2 ^ w.bits :=
  crcShift8_lt hp _ _

theorem bytes_pos (w : Width) : 0 < w.bytes := by cases w <;> decide

theorem fletcherInRange_openFletcherSession (w : Width) (ord : Bool) (s : State) :
    FletcherInRange (openFletcherSession w ord s) :=
  ⟨modulus_pos w, modulus_pos w, bytes_pos w, Nat.two_pow_pos _⟩

theorem inv_openFletcherSession {s : State} (h : s.Inv) (w : Width) (ord : Bool) :
    (openFletcherSession w ord s).Inv :=
  { h with
    fletcherInRange := fletcherInRange_openFletcherSession w ord s
    fletcherIdleAtReset := nofun }

theorem inv_takeFletcherByte {s : State} (h : s.Inv) (ha : s.fActive = true) (b : Byte) :
    (takeFletcherByte b s).Inv := by
  have hrange := takeFletcherByte_inRange b h.fletcherInRange
  have hidle : FletcherIdleAtReset (takeFletcherByte b s) := fun hc => by simp [ha] at hc
  by_cases hn : (s.fNpart + 1#3).toNat = s.fWc.bytes
  · rw [takeFletcherByte_complete b hn] at hrange hidle ⊢
    exact { h with fletcherInRange := hrange, fletcherIdleAtReset := hidle }
  · rw [takeFletcherByte_incomplete b hn] at hrange hidle ⊢
    exact { h with fletcherInRange := hrange, fletcherIdleAtReset := hidle }

/-- Every successful command keeps the invariants. -/
theorem inv_succeeds {s u : State} {i : Instr} {d : DWord} (h : s.Inv) (hu : Succeeds s i d u) : u.Inv := by
  cases hu with
  | nop => exact h
  | rd _ => exact h
  | wr hw => exact inv_writeReg h hw
  | rst => exact inv_resetEngine h
  | clrerr => exact { h with statusLegal := statusLegal_zero }
  | crcPreset _ => exact { h with }
  | crcStart hf => exact inv_openCrcSession h hf
  | crcByteB _ ha hr =>
    obtain ⟨hpoly, -, -⟩ := h.crcSessionFits ha
    exact inv_withCrcReg h ha (hr ▸ crcShift8_lt hpoly _ _)
  | crcByteT _ ha hr =>
    obtain ⟨hpoly, -, -⟩ := h.crcSessionFits ha
    rw [lutCell_ensureTable _ _ h.tableCoherent] at hr
    refine inv_withCrcReg (inv_ensureTable h hpoly) (by simpa using ha) ?_
    rw [hr, ensureTable_aWc]
    exact combineEntry_lt _ (tableEntry_lt hpoly _)
  | crcFinal ha _ => exact { h with crcIdleAtReset := fun hidle => absurd (ha.symm.trans hidle) (by decide) }
  | tabBuild hf => exact inv_ensureTable h ((stagedPolyFits_iff s).1 hf)
  | tabRead _ hf => exact inv_ensureTable h ((stagedPolyFits_iff s).1 hf)
  | flStart _ => exact inv_openFletcherSession h _ _
  | flByte _ ha => exact inv_takeFletcherByte h ha _
  | flFinal ha => exact { h with fletcherIdleAtReset := fun hidle => absurd (ha.symm.trans hidle) (by decide) }

/-- Settles O14: a step waits, resets, rejects or succeeds, and each keeps the invariants. -/
theorem everyStepKeepsTheInvariants : Obligations.EveryStepKeepsTheInvariants := by
  intro s t hinv hstep
  rcases step_next_cases hstep with ⟨-, rfl⟩ | ⟨rest, -, rfl⟩ | ⟨c, rest, -, hcommand⟩
  · exact hinv
  · exact inv_powerOn _
  · have htaken := inv_withHostStream hinv rest
    rcases hcommand with ⟨e, rfl⟩ | ⟨i, d, u, -, hu, rfl⟩
    · exact inv_reject htaken e
    · exact inv_answer (inv_succeeds htaken hu) d

/-- Settles O13: the reset state holds the reset values, with 256 named cells and no response. -/
theorem resetStateMeetsTheInvariants : Obligations.ResetStateMeetsTheInvariants :=
  inv_of_atReset atReset_reset unspecifiedTable_length nofun

/-- The packed sums give both sums back (42_fletcher.md R155, R160). -/
theorem packSums_parts (w : Width) {s2 s1 : Word} (h1 : s1.toNat < w.modulus) (h2 : s2.toNat < w.modulus) :
    (packSums w s2 s1).toNat < 2 ^ (2 * w.bits) ∧ (packSums w s2 s1).toNat % 2 ^ w.bits = s1.toNat ∧
      (packSums w s2 s1).toNat / 2 ^ w.bits = s2.toNat := by
  have h1' : s1.toNat < 2 ^ w.bits := lt_of_lt_of_le h1 (Nat.sub_le _ _)
  have h2' : s2.toNat < 2 ^ w.bits := lt_of_lt_of_le h2 (Nat.sub_le _ _)
  rw [toNat_packSums w h1' h2', Nat.mul_comm, two_mul, pow_add]
  refine ⟨?_, ?_, ?_⟩
  · nlinarith
  · rw [Nat.mul_add_mod, Nat.mod_eq_of_lt h1']
  · rw [Nat.mul_add_div (Nat.two_pow_pos _), Nat.div_eq_of_lt h1', Nat.add_zero]

/-- The result FL.FINAL writes packs two sums below the modulus (42_fletcher.md R155). -/
theorem fletcherResult_eq_packSums {s : State} (h : FletcherInRange s) :
    ∃ s2 s1 : Word, fletcherResult s = packSums s.fWc s2 s1 ∧ s1.toNat < s.fWc.modulus ∧ s2.toNat < s.fWc.modulus := by
  obtain ⟨h1, h2, -, -⟩ := h
  unfold fletcherResult
  split
  · exact ⟨_, _, rfl, addM_lt _ _ _, addM_lt _ _ _⟩
  · exact ⟨_, _, rfl, h1, h2⟩

/-- Settles O47: a CRC result is masked to the width; an FL result packs two sums below the modulus. -/
theorem finalResultsFitTheirWidth : Obligations.FinalResultsFitTheirWidth := by
  intro s t hinv
  refine ⟨fun ha h => ?crc, fun ha h => ?fletcher⟩
  case crc =>
    rw [exec, execCrcFinal, if_pos ha] at h
    cases h
    exact crcFinal_lt _ _ _ _
  case fletcher =>
    rw [exec, execFlFinal, if_pos ha] at h
    cases h
    obtain ⟨s2, s1, hres, h1, h2⟩ := fletcherResult_eq_packSums hinv.fletcherInRange
    obtain ⟨hlt, hmod, hdiv⟩ := packSums_parts s.fWc h1 h2
    simp only [answer_flOut, answer_fWc, hres, hmod, hdiv]
    exact ⟨hlt, h1, h2⟩

end Sys2Proof.Proofs.Invariants
end

section
/-! SUPPORT. Proof that the hidden table influences nothing (10_state.md R38, 40_crc_bitloop.md R113): from a state with
a coherent table and from the same state without a table, each command leaves the same state but for the table. -/

namespace Sys2Proof.Proofs.HiddenTable

open Sys2Proof.Machine Sys2Proof.Proofs.Inversion Sys2Proof.Proofs.Invariants

/-- An outcome without what it says of the hidden table. -/
def hideCache : Host.Outcome State Fault Refusal → Host.Outcome State Fault Refusal
  | .next s => .next (withoutCache s)
  | .fault r => .fault r
  | .refused r => .refused r

theorem hideCache_respond (d : DWord) (s : State) :
    hideCache (respond d s) = respond d (withoutCache s) := rfl

theorem hideCache_ite (p : Prop) [Decidable p] (x y : Host.Outcome State Fault Refusal) :
    hideCache (if p then x else y) = if p then hideCache x else hideCache y := apply_ite hideCache p x y

/-- A state without a table has a coherent one. -/
theorem tableCoherent_withoutCache (s : State) : TableCoherent (withoutCache s) := nofun

/-! The operations do not look at the table. -/

theorem readReg_withoutCache (r : Reg) (s : State) : readReg r (withoutCache s) = readReg r s := by
  cases r <;> rfl

theorem writeReg?_withoutCache (r : BitVec 8) (v : Word) (s : State) :
    writeReg? r v (withoutCache s) = (writeReg? r v s).map withoutCache := by
  unfold writeReg?
  cases regOfNumber? r with
  | none => rfl
  | some reg =>
    cases reg with
    | crcCtrl => cases ctrlOfWord? v <;> rfl
    | _ => rfl

theorem takeFletcherByte_withoutCache (b : Byte) (s : State) :
    takeFletcherByte b (withoutCache s) = withoutCache (takeFletcherByte b s) := by
  by_cases h : (s.fNpart + 1#3).toNat = s.fWc.bytes
  · rw [takeFletcherByte_complete b h, takeFletcherByte_complete b (s := withoutCache s) h]; rfl
  · rw [takeFletcherByte_incomplete b h, takeFletcherByte_incomplete b (s := withoutCache s) h]; rfl

/-- CRC.BYTET's update: the table it ensures does not show beside the register it writes (41_crc_table.md R135). -/
theorem withoutCache_ensureTable_withCrcReg (poly : Word) (w : Width) (r : Word) (s : State) :
    withoutCache { ensureTable poly w s with crcReg := r } = withoutCache { s with crcReg := r } :=
  congrArg (fun u : State => { u with crcReg := r }) (withoutCache_ensureTable poly w s)

/-- A table command in a state with a coherent table reads the table function, which needs no table; every other
command reads no cell. -/
theorem hideCache_exec (i : Instr) {s : State} (hc : TableCoherent s) :
    hideCache (exec i s) = hideCache (exec i (withoutCache s)) := by
  have hcell := fun poly w j => lutCell_ensureTable poly w hc j
  have hcell' := fun poly w j => lutCell_ensureTable poly w (tableCoherent_withoutCache s) j
  cases i with
  | nop => rfl
  | rd r =>
    simp only [exec, execRd]
    cases regOfNumber? r with
    | none => rfl
    | some reg => simp only [readReg_withoutCache]; rfl
  | wr r imm =>
    simp only [exec, execWr, writeReg?_withoutCache]
    cases writeReg? r imm s <;> rfl
  | rst => rfl
  | clrerr => rfl
  | crcPreset p =>
    simp only [exec, execCrcPreset]
    cases presetOfNumber? p <;> rfl
  | crcStart => simp only [exec, execCrcStart, hideCache_ite]; rfl
  | crcByteB opd =>
    simp only [exec, execCrcByteB]
    cases byteOperand? opd with
    | none => rfl
    | some b => simp only [hideCache_ite]; rfl
  | crcByteT opd =>
    simp only [exec, execCrcByteT]
    cases byteOperand? opd with
    | none => rfl
    | some b =>
      simp only [hideCache_ite, hideCache_respond, withoutCache_ensureTable_withCrcReg, hcell, hcell']
      rfl
  | crcFinal => simp only [exec, execCrcFinal, hideCache_ite]; rfl
  | tabBuild =>
    simp only [exec, execTabBuild, hideCache_ite, hideCache_respond, withoutCache_ensureTable]
    rfl
  | tabRead opd =>
    simp only [exec, execTabRead]
    cases byteOperand? opd with
    | none => rfl
    | some j =>
      simp only [hideCache_ite, hideCache_respond, withoutCache_ensureTable, hcell, hcell']
      rfl
  | flStart wc ord =>
    simp only [exec, execFlStart]
    cases Width.ofCode? wc <;> rfl
  | flByte opd =>
    simp only [exec, execFlByte]
    cases byteOperand? opd with
    | none => rfl
    | some b => simp only [hideCache_ite, takeFletcherByte_withoutCache]; rfl
  | flFinal => simp only [exec, execFlFinal, hideCache_ite]; rfl

theorem hideCache_step {s : State} (hc : TableCoherent s) : hideCache (step s) = hideCache (step (withoutCache s)) := by
  cases hs : s.hostStream with
  | nil => simp only [step, acceptEvent?, hs, show (withoutCache s).hostStream = [] from hs]; rfl
  | cons ev rest =>
    cases ev with
    | powerOnReset => rw [step_powerOnReset hs, step_powerOnReset (s := withoutCache s) hs]; rfl
    | command c =>
      cases hd : decode c with
      | error e => rw [step_of_decode_error hs hd, step_of_decode_error (s := withoutCache s) hs hd]; rfl
      | ok i =>
        rw [step_of_decode_ok hs hd, step_of_decode_ok (s := withoutCache s) hs hd]
        exact hideCache_exec i (s := { s with hostStream := rest }) hc

/-- Every step answers a next state: no command faults or is refused. -/
theorem exists_step_eq_next (s : State) : ∃ t, step s = .next t := by
  rcases step_cases s with ⟨-, h⟩ | ⟨rest, -, h⟩ | ⟨c, rest, i, -, -, h⟩ | ⟨c, rest, e, -, -, h⟩
  · exact ⟨_, h⟩
  · exact ⟨_, h⟩
  · rcases exec_cases i { s with hostStream := rest } with ⟨e, he⟩ | ⟨d, u, he⟩
    · exact ⟨_, h.trans he⟩
    · exact ⟨_, h.trans he⟩
  · exact ⟨_, h⟩

/-- One step of two states that differ only in their coherent tables. -/
theorem step_sameButCache {s t s' t' : State} (hs : TableCoherent s) (ht : TableCoherent t) (hst : SameButCache s t)
    (hs' : step s = .next s') (ht' : step t = .next t') : SameButCache s' t' := by
  have h : hideCache (step s) = hideCache (step t) := by rw [hideCache_step hs, hideCache_step ht, hst]
  rw [hs', ht'] at h
  exact Host.Outcome.next.inj h

/-- Settles O54, by induction on the number of steps: the invariants, which keep both tables coherent, are kept. -/
theorem tableCacheIsInvisible : Obligations.TableCacheIsInvisible := by
  intro n
  induction n with
  | zero => exact fun s t _ _ hst => ⟨s, t, rfl, rfl, hst⟩
  | succ n ih =>
    intro s t hs ht hst
    obtain ⟨s₁, hs₁⟩ := exists_step_eq_next s
    obtain ⟨t₁, ht₁⟩ := exists_step_eq_next t
    rw [run_succ n hs₁, run_succ n ht₁]
    exact ih s₁ t₁ (everyStepKeepsTheInvariants s s₁ hs hs₁) (everyStepKeepsTheInvariants t t₁ ht ht₁)
      (step_sameButCache hs.tableCoherent ht.tableCoherent hst hs₁ ht₁)

end Sys2Proof.Proofs.HiddenTable
end

section
/-! SUPPORT. Proofs of the statements about steps and reset (20_memory.md R60, 10_state.md R44,
70_reset_and_hazards.md R230). -/

namespace Sys2Proof.Proofs.Reset

open Sys2Proof.Machine Sys2Proof.Proofs.Inversion Sys2Proof.Proofs.Invariants

theorem decodeTableWord_eq_some {nbits w : Nat} {i : Instr} (h : decodeTableWord nbits w = some i) :
    decode (tableWord nbits w) = .ok i := by
  unfold decodeTableWord at h
  split at h
  · next hd => cases h; exact hd
  · cases h

/-- Settles O8: the word taken is the head of the stream, and a word handed over stands at that head. -/
theorem stepRunsTheDecodedCommand : Obligations.StepRunsTheDecodedCommand := by
  refine ⟨fun c i s rest hs hd => step_of_decode_ok hs hd, fun s nbits w i h => ?_⟩
  exact step_of_decode_ok (s := s.withFetchWord nbits w) rfl (decodeTableWord_eq_some h)

/-- Settles O11: a power-on reset is RST's reset without the response. -/
theorem powerOnResetsTheEngine : Obligations.PowerOnResetsTheEngine := by
  intro s rest hs
  exact ⟨_, _, step_powerOnReset hs, atReset_powerOn _, rfl, rfl, rfl, rfl⟩

/-! The commands in a state that holds the reset values (10_state.md R44). -/

/-- The word 0 of the reset table stands for the fields of CRC.PRESET 0 (10_state.md R24). -/
theorem atReset_crcCtrl {s : State} (h : AtReset s) : s.crcCtrl = { width := .w8, refin := false, refout := false } := by
  have hfields := ctrlOfWord?_ctrlWord s.crcCtrl
  rw [h.crcCtrl] at hfields
  exact (Option.some.inj hfields).symm

/-- CRC.PRESET 0 loads what the staged configuration holds (40_crc_bitloop.md R104). -/
theorem execCrcPreset_zero_of_atReset {s : State} (h : AtReset s) :
    exec (.crcPreset 0#8) s = .next { s with resp := okResponse 0#64 } := by
  have hload : loadPreset (0x07#32, 0#32, 0#32, { width := .w8, refin := false, refout := false }) s = s :=
    calc loadPreset (0x07#32, 0#32, 0#32, { width := .w8, refin := false, refout := false }) s
        = loadPreset (s.crcPoly, s.crcInit, s.crcXorout, s.crcCtrl) s := by
          rw [h.crcPoly, h.crcInit, h.crcXorout, atReset_crcCtrl h]
      _ = s := rfl
  exact congrArg (respond 0#64) hload

/-- CRC.START opens a CRC-8 session with the defaults (40_crc_bitloop.md R105). -/
theorem execCrcStart_of_atReset {s : State} (h : AtReset s) :
    exec .crcStart s = .next { s with aActive := true, aPoly := 0x07#32, resp := okResponse 0#64 } := by
  have hctrl := atReset_crcCtrl h
  have hfits : stagedFits s = true := by
    rw [stagedFits, hctrl, h.crcPoly, h.crcInit, h.crcXorout]
    decide
  have hopen : openCrcSession s = { s with aActive := true, aPoly := 0x07#32 } := by
    simp only [openCrcSession, hctrl, h.crcPoly, h.crcInit, h.crcXorout, (atReset_widths h).1, h.aRefin, h.aRefout,
      h.aXorout, h.crcReg]
  rw [exec, execCrcStart, if_pos hfits, hopen, h.crcInit]
  rfl

theorem execCrcByteB_of_idle {s : State} (h : s.aActive = false) (b : Byte) :
    exec (.crcByteB (b.setWidth 32)) s = .next (reject .seq s) := by
  simp [exec, execCrcByteB, h, raise]

theorem execCrcByteT_of_idle {s : State} (h : s.aActive = false) (b : Byte) :
    exec (.crcByteT (b.setWidth 32)) s = .next (reject .seq s) := by
  simp [exec, execCrcByteT, h, raise]

theorem execCrcFinal_of_idle {s : State} (h : s.aActive = false) : exec .crcFinal s = .next (reject .seq s) := by
  simp [exec, execCrcFinal, h, raise]

theorem execFlByte_of_idle {s : State} (h : s.fActive = false) (b : Byte) :
    exec (.flByte (b.setWidth 32)) s = .next (reject .seq s) := by
  simp [exec, execFlByte, h, raise]

theorem execFlFinal_of_idle {s : State} (h : s.fActive = false) : exec .flFinal s = .next (reject .seq s) := by
  simp [exec, execFlFinal, h, raise]

/-- Settles O12: the three resets hold the table's values, and the commands read them there. -/
theorem resetStateIsTheTable : Obligations.ResetStateIsTheTable := by
  refine ⟨atReset_reset, fun s t h => ?rst, fun s t rest hs h => ?powerOn, fun s hs => ?commands⟩
  case rst =>
    cases h
    exact atReset_answer (atReset_resetEngine s) 0#64
  case powerOn =>
    rw [step_powerOnReset hs] at h
    cases h
    exact atReset_powerOn _
  case commands =>
    exact ⟨execCrcPreset_zero_of_atReset hs, execCrcStart_of_atReset hs, execCrcByteB_of_idle hs.aActive,
      execCrcByteT_of_idle hs.aActive, execCrcFinal_of_idle hs.aActive, execFlByte_of_idle hs.fActive,
      execFlFinal_of_idle hs.fActive⟩

end Sys2Proof.Proofs.Reset
end

section
/-! SUPPORT. Proof of the statement about the registers that are words of fields (10_state.md R24, R28, R35). -/

namespace Sys2Proof.Proofs.FieldRegisters

open Sys2Proof.Machine

/-- A field of `n` bits placed at bit `j` shows its own bits there and 0 elsewhere. -/
theorem getLsbD_field {n : Nat} (x : BitVec n) (j : Nat) {k : Nat} (hk : k < 32) :
    (x.setWidth 32 <<< j).getLsbD k = (decide (j ≤ k) && x.getLsbD (k - j)) := by
  rw [BitVec.getLsbD_shiftLeft, BitVec.getLsbD_setWidth]
  by_cases h : j ≤ k
  · simp [hk, h, show k - j < 32 by omega]
  · simp [h, show k < j by omega]

theorem getLsbD_flagBit (b : Bool) (j : Nat) {k : Nat} (hk : k < 32) :
    (flagBit b j).getLsbD k = (decide (k = j) && b) := by
  rw [flagBit, getLsbD_field _ _ hk, BitVec.getLsbD_ofBool, ← Bool.and_assoc]
  congr 1
  rw [← Bool.decide_and, decide_eq_decide]
  omega

/-- A width code shows its two bits at [1:0] (00_scope.md R7). -/
theorem getLsbD_widthCode (w : Width) {k : Nat} (hk : k < 32) :
    (w.code.setWidth 32).getLsbD k = if k < 2 then w.code.getLsbD k else false := by
  rw [BitVec.getLsbD_setWidth, decide_eq_true hk, Bool.true_and]
  split
  · rfl
  · exact BitVec.getLsbD_of_ge _ _ (by omega)

/-- Settles O26: a register is the OR of its fields, each at its place; at a bit of one field the others show 0. -/
theorem fieldRegistersShowTheirFields : Obligations.FieldRegistersShowTheirFields := by
  intro s k hk
  simp only [ctrlWord, crcAstat, flStat, BitVec.getLsbD_or, getLsbD_widthCode _ hk, getLsbD_flagBit _ _ hk,
    getLsbD_field _ _ hk]
  have hplace : k < 2 ∨ k = 2 ∨ k = 3 ∨ (4 ≤ k ∧ k ≤ 6) ∨ (7 ≤ k ∧ k ≤ 30) ∨ k = 31 := by omega
  rcases hplace with h | rfl | rfl | h | h | rfl
  · simp [h, show k ≠ 2 by omega, show k ≠ 3 by omega, show k ≠ 31 by omega, show ¬4 ≤ k by omega]
  · simp
  · simp
  · simp [h, show ¬k < 2 by omega, show k ≠ 2 by omega, show k ≠ 3 by omega, show k ≠ 31 by omega]
  · have hnpart : s.fNpart.getLsbD (k - 4) = false := BitVec.getLsbD_of_ge _ _ (by omega)
    simp [hnpart, show ¬k < 2 by omega, show k ≠ 2 by omega, show k ≠ 3 by omega, show k ≠ 31 by omega]
  · simp

end Sys2Proof.Proofs.FieldRegisters
end

section
/-! SUPPORT. Proofs of the statements about who writes what (10_state.md R25, R26, R27, R36, R42): which command changes
the latched CRC parameters, a result register, or closes a session. -/

namespace Sys2Proof.Proofs.Writers

open Sys2Proof.Machine Sys2Proof.Proofs.Inversion

/-- WR writes the staged configuration only (43_engine_control.md R172). -/
theorem writeReg?_frame {s u : State} {r : BitVec 8} {v : Word} (hw : writeReg? r v s = some u) :
    u = { s with crcPoly := u.crcPoly, crcInit := u.crcInit, crcXorout := u.crcXorout, crcCtrl := u.crcCtrl } := by
  rcases writeReg?_cases r v s with hn | hp | hi | hx | ⟨c, -, hc⟩
  · rw [hw] at hn; cases hn
  · rw [hw] at hp; cases hp; rfl
  · rw [hw] at hi; cases hi; rfl
  · rw [hw] at hx; cases hx; rfl
  · rw [hw] at hc; cases hc; rfl

/-- A command that is no CRC.START and no RST keeps the latched CRC parameters (10_state.md R25). -/
theorem sameCrcParameters_of_succeeds {s u : State} {i : Instr} {d : DWord} (hu : Succeeds s i d u)
    (hstart : i ≠ .crcStart) (hrst : i ≠ .rst) : SameCrcParameters s u := by
  cases hu with
  | crcStart _ => exact absurd rfl hstart
  | rst => exact absurd rfl hrst
  | wr hw => rw [writeReg?_frame hw]; constructor <;> rfl
  | _ => constructor <;> simp

/-- A command that is no CRC.START, no RST and no byte of the CRC keeps CRC_REG (10_state.md R26). -/
theorem crcReg_of_succeeds {s u : State} {i : Instr} {d : DWord} (hu : Succeeds s i d u)
    (hstart : i ≠ .crcStart) (hrst : i ≠ .rst)
    (hbyte : ∀ opd, i = .crcByteB opd ∨ i = .crcByteT opd → byteOperand? opd = none) : u.crcReg = s.crcReg := by
  cases hu with
  | crcStart _ => exact absurd rfl hstart
  | rst => exact absurd rfl hrst
  | crcByteB hb _ _ => rw [hbyte _ (.inl rfl)] at hb; cases hb
  | crcByteT hb _ _ => rw [hbyte _ (.inr rfl)] at hb; cases hb
  | wr hw => rw [writeReg?_frame hw]
  | _ => simp

/-- A command that is no CRC.FINAL and no RST keeps CRC_OUT (10_state.md R27). -/
theorem crcOut_of_succeeds {s u : State} {i : Instr} {d : DWord} (hu : Succeeds s i d u)
    (hfinal : i ≠ .crcFinal) (hrst : i ≠ .rst) : u.crcOut = s.crcOut := by
  cases hu with
  | crcFinal _ _ => exact absurd rfl hfinal
  | rst => exact absurd rfl hrst
  | wr hw => rw [writeReg?_frame hw]
  | _ => simp

/-- A command that is no FL.FINAL and no RST keeps FL_OUT (10_state.md R36). -/
theorem flOut_of_succeeds {s u : State} {i : Instr} {d : DWord} (hu : Succeeds s i d u)
    (hfinal : i ≠ .flFinal) (hrst : i ≠ .rst) : u.flOut = s.flOut := by
  cases hu with
  | flFinal _ => exact absurd rfl hfinal
  | rst => exact absurd rfl hrst
  | wr hw => rw [writeReg?_frame hw]
  | _ => simp

/-- No command but RST closes an open session (10_state.md R42). -/
theorem sessions_stay_open {s u : State} {i : Instr} {d : DWord} (hu : Succeeds s i d u)
    (hrst : i ≠ .rst) : (s.aActive = true → u.aActive = true) ∧ (s.fActive = true → u.fActive = true) := by
  cases hu with
  | rst => exact absurd rfl hrst
  | wr hw => rw [writeReg?_frame hw]; exact ⟨id, id⟩
  | _ => simp

/-- A word that neither starts nor resets the CRC decodes to neither command. -/
theorem ne_of_startsOrResetsCrc_eq_false {c : Command} {i : Instr} (hd : decode c = .ok i)
    (h : startsOrResetsCrc c = false) : i ≠ .crcStart ∧ i ≠ .rst := by
  constructor <;> rintro rfl <;> simp [startsOrResetsCrc, hd] at h

/-- A word that feeds no byte to the CRC has no byte in its operand, if it decodes to a data command. -/
theorem byteOperand?_of_crcDataByte?_eq_none {c : Command} {i : Instr} (hd : decode c = .ok i)
    (h : crcDataByte? c = none) (opd : Word) (hi : i = .crcByteB opd ∨ i = .crcByteT opd) :
    byteOperand? opd = none := by
  rcases hi with rfl | rfl <;> simpa [crcDataByte?, hd] using h

/-- Settles O51: a rejection keeps every register but STATUS, and only CRC.START and RST latch the parameters. -/
theorem onlyStartAndResetChangeTheCrcParameters : Obligations.OnlyStartAndResetChangeTheCrcParameters := by
  intro s t c rest hs h hnot
  rcases step_command_cases hs h with ⟨e, rfl⟩ | ⟨i, d, u, hd, hu, rfl⟩
  · exact ⟨rfl, rfl, rfl, rfl, rfl, rfl⟩
  · obtain ⟨hstart, hrst⟩ := ne_of_startsOrResetsCrc_eq_false hd hnot
    exact { sameCrcParameters_of_succeeds hu hstart hrst with }

/-- Settles O52: a rejection keeps every register but STATUS, and each result register has its own writers. -/
theorem resultRegistersHaveOneWriter : Obligations.ResultRegistersHaveOneWriter := by
  intro s t c rest hs h hrst
  rcases step_command_cases hs h with ⟨e, rfl⟩ | ⟨i, d, u, hd, hu, rfl⟩
  · exact ⟨fun _ _ => rfl, fun _ => rfl, fun _ => rfl⟩
  · have hne : i ≠ .rst := fun hi => hrst (hi ▸ hd)
    refine ⟨fun hnot hbyte => ?crcReg, fun hfinal => ?crcOut, fun hfinal => ?flOut⟩
    case crcReg =>
      obtain ⟨hstart, -⟩ := ne_of_startsOrResetsCrc_eq_false hd hnot
      exact (crcReg_of_succeeds hu hstart hne (byteOperand?_of_crcDataByte?_eq_none hd hbyte) :)
    case crcOut => exact (crcOut_of_succeeds hu (fun hi => hfinal (hi ▸ hd)) hne :)
    case flOut => exact (flOut_of_succeeds hu (fun hi => hfinal (hi ▸ hd)) hne :)

/-- Settles O53: a step that waits, rejects or runs another command than RST leaves the sessions open. -/
theorem onlyResetClosesASession : Obligations.OnlyResetClosesASession := by
  intro s t h hclosed
  rcases step_next_cases h with ⟨-, rfl⟩ | ⟨rest, hs, -⟩ | ⟨c, rest, hs, ⟨e, rfl⟩ | ⟨i, d, u, hd, hu, rfl⟩⟩
  · simp at hclosed
  · exact ⟨rest, .inl hs⟩
  · simp at hclosed
  · by_cases hi : i = .rst
    · exact ⟨rest, .inr ⟨c, hs, hi ▸ hd⟩⟩
    · obtain ⟨hcrc, hfl⟩ := sessions_stay_open hu hi
      rcases hclosed with ⟨ha, hc⟩ | ⟨ha, hc⟩
      · exact absurd ((hcrc ha).symm.trans hc) (by decide)
      · exact absurd ((hfl ha).symm.trans hc) (by decide)

end Sys2Proof.Proofs.Writers
end

section
/-! SUPPORT. Proofs of the statements about what the control commands leave alone and which commands repeat
(20_memory.md R58). -/

namespace Sys2Proof.Proofs.Frames

open Sys2Proof.Machine Sys2Proof.Proofs.Inversion Sys2Proof.Proofs.Writers

/-! What a successful command leaves alone. -/

/-- NOP, RD, WR, CLRERR and CRC.PRESET write the staged configuration and STATUS only. -/
theorem control_frame_of_succeeds {s u : State} {i : Instr} {d : DWord} (hu : Succeeds s i d u)
    (hi : i = .nop ∨ (∃ r, i = .rd r) ∨ (∃ r v, i = .wr r v) ∨ i = .clrerr ∨ (∃ p, i = .crcPreset p)) :
    u = { s with
      crcPoly := u.crcPoly, crcInit := u.crcInit, crcXorout := u.crcXorout, crcCtrl := u.crcCtrl, status := u.status } := by
  rcases hi with rfl | ⟨r, rfl⟩ | ⟨r, v, rfl⟩ | rfl | ⟨p, rfl⟩
  · cases hu; rfl
  · cases hu; rfl
  · cases hu with | wr hw => rw [writeReg?_frame hw]
  · cases hu; rfl
  · cases hu; rfl

/-- The frame of NOP, RD, WR, CLRERR and CRC.PRESET, rejected or not (43_engine_control.md R170-R172, R174,
40_crc_bitloop.md R104). -/
theorem control_frame_of_exec {s t : State} {i : Instr} (h : exec i s = .next t)
    (hi : i = .nop ∨ (∃ r, i = .rd r) ∨ (∃ r v, i = .wr r v) ∨ i = .clrerr ∨ (∃ p, i = .crcPreset p)) :
    t = { s with
      crcPoly := t.crcPoly, crcInit := t.crcInit, crcXorout := t.crcXorout, crcCtrl := t.crcCtrl,
      status := t.status, resp := t.resp } := by
  cases answers_of_exec h with
  | rejected e => rfl
  | succeeded hu => rw [control_frame_of_succeeds hu hi]; rfl

/-- A command that is no WR, no CRC.PRESET and no RST keeps the staged configuration (10_state.md R20). -/
theorem sameStaged_of_exec {s t : State} {i : Instr} (h : exec i s = .next t)
    (hwr : ∀ r v, i ≠ .wr r v) (hpreset : ∀ p, i ≠ .crcPreset p) (hrst : i ≠ .rst) : SameStaged s t := by
  cases answers_of_exec h with
  | rejected e => exact ⟨rfl, rfl, rfl, rfl⟩
  | succeeded hu =>
    cases hu with
    | wr _ => exact absurd rfl (hwr _ _)
    | crcPreset _ => exact absurd rfl (hpreset _)
    | rst => exact absurd rfl hrst
    | _ => constructor <;> simp

/-- Settles O48: the registers outside the frame of the control commands are unchanged, and NOP, RD and CLRERR write no
staged register. -/
theorem controlCommandsKeepTheSessions : Obligations.ControlCommandsKeepTheSessions := by
  intro i s t hi h
  have hstaged : i = .nop ∨ (∃ r, i = .rd r) ∨ i = .clrerr → SameStaged s t := by
    rintro (rfl | ⟨r, rfl⟩ | rfl) <;> exact sameStaged_of_exec h nofun nofun nofun
  rw [control_frame_of_exec h hi]
  exact ⟨⟨rfl, rfl, rfl, rfl, rfl, rfl⟩, rfl, rfl, ⟨rfl, rfl, rfl, rfl, rfl, rfl, rfl⟩, rfl, ⟨rfl, rfl, rfl, rfl⟩,
    rfl, rfl, fun hi' => { hstaged hi' with }⟩

/-! Reads and FINALs. -/

/-- A command that answers OK has succeeded (60_exceptions.md R206, R208). -/
theorem succeeds_of_okResponse {s t : State} {i : Instr} {d : DWord} (h : exec i s = .next t)
    (hok : t.resp = okResponse d) : ∃ u, Succeeds s i d u ∧ t = answer d u := by
  cases answers_of_exec h with
  | rejected e => cases e <;> cases hok
  | succeeded hu => cases hok; exact ⟨_, hu, rfl⟩

/-- CRC.FINAL in an open session (40_crc_bitloop.md R107). -/
theorem exec_crcFinal_of_open {s : State} (ha : s.aActive = true) :
    exec .crcFinal s = .next (answer ((crcFinal s.crcReg s.aXorout s.aRefout s.aWc).setWidth 64)
      { s with crcOut := crcFinal s.crcReg s.aXorout s.aRefout s.aWc }) := if_pos ha

/-- FL.FINAL in an open session (42_fletcher.md R155). -/
theorem exec_flFinal_of_open {s : State} (ha : s.fActive = true) :
    exec .flFinal s = .next (answer (fletcherResult s) { s with flOut := fletcherResult s }) := if_pos ha

/-- Settles O56: a read that answers OK has succeeded, so it leaves the state, or the state with an ensured table; a
FINAL reads no register it writes, so in the state it left it computes the same again. -/
theorem readsAndFinalsAreIdempotent : Obligations.ReadsAndFinalsAreIdempotent := by
  refine ⟨fun r s t d h hok => ?rd, fun opd s t d h hok => ?tabRead, fun s t h ha => ?crcFinal, fun s t h ha => ?flFinal⟩
  case rd =>
    obtain ⟨u, hu, rfl⟩ := succeeds_of_okResponse h hok
    cases hu; rfl
  case tabRead =>
    obtain ⟨u, hu, rfl⟩ := succeeds_of_okResponse h hok
    cases hu with
    | tabRead hj hf => exact congrArg (answer _) (withoutCache_ensureTable s.crcPoly s.crcCtrl.width s)
  case crcFinal =>
    rw [exec_crcFinal_of_open ha] at h
    cases h
    exact exec_crcFinal_of_open ha
  case flFinal =>
    rw [exec_flFinal_of_open ha] at h
    cases h
    exact exec_flFinal_of_open ha

end Sys2Proof.Proofs.Frames
end

section
/-! SUPPORT. Proofs of the statements about decoding and encoding (30_encoding.md R71-R80). The decoder's legal numbers
are the well-formed ones, and an accepted word is assembled from its own opcode, F and OPD with a reserved field of 0;
the two directions of the round trip rest on these, command by command. -/

namespace Sys2Proof.Proofs.Encoding

open Sys2Proof.Machine

/-! The F values that pass check 3 of 30_encoding.md R77 are the numbers of the well-formed commands. -/

@[simp] theorem rdNumberLegal_eq_assignedNumber (f : BitVec 8) :
    rdNumberLegal f = WellFormed.assignedNumber f := by
  revert f; decide +kernel

@[simp] theorem wrNumberLegal_eq_true {f : BitVec 8} : wrNumberLegal f = true ↔ f.toNat ≤ 0x03 :=
  decide_eq_true_iff.trans Nat.lt_succ_iff

@[simp] theorem presetNumberLegal_eq_true {f : BitVec 8} : presetNumberLegal f = true ↔ f.toNat ≤ 2 :=
  decide_eq_true_iff.trans Nat.lt_succ_iff

@[simp] theorem flStartFieldLegal_flStartField (wc : BitVec 2) (ord : Bool) :
    flStartFieldLegal (flStartField wc ord) = decide (wc ≠ 3#2) := by
  revert wc ord; decide

/-! Encoding, then decoding. -/

/-- The word of a well-formed command passes every check of its own arm. -/
theorem decode_encode {i : Instr} (hi : i.WellFormed) : decode (encode i) = .ok i := by
  cases i with
  | rd r =>
    have hr : WellFormed.assignedNumber r = true := hi
    simp [decode, encode, checkedDecode_eq_ok, hr]
  | wr r imm =>
    have hr : r.toNat ≤ 0x03 := of_decide_eq_true hi
    simp [decode, encode, checkedDecode_eq_ok, hr]
  | crcPreset p =>
    have hp : p.toNat ≤ 2 := of_decide_eq_true hi
    simp [decode, encode, checkedDecode_eq_ok, hp]
  | flStart wc ord =>
    have hwc : wc ≠ 3#2 := of_decide_eq_true hi
    simp [decode, encode, checkedDecode_eq_ok, hwc]
  | crcByteB opd | crcByteT opd | tabRead opd | flByte opd => simp [decode, encode, checkedDecode_eq_ok]
  | nop | rst | clrerr | crcStart | crcFinal | tabBuild | flFinal => rfl

/-- Settles O1: the fields of an assembled word are its parts, so the decoder reads back what the encoder wrote. -/
theorem decodeOfEncode : Obligations.DecodeOfEncode := fun _ hi => decode_encode hi

/-! Decoding, then encoding. -/

/-- An arm with opcode `o` that accepts the word: the arm's command encodes to the word if, F and OPD having passed
their checks, it encodes to that opcode, the word's F, a reserved field of 0 and the word's OPD (30_encoding.md R71,
R77). -/
theorem encode_of_checkedDecode {c : Command} {o : BitVec 8} {fOk opdOk : Bool} {i j : Instr}
    (ho : (opcField c).toNat = o.toNat) (h : checkedDecode c fOk opdOk i = .ok j)
    (hi : fOk = true → opdOk = true → encode i = assemble o (fField c) 0 (opdField c) ∧ i.WellFormed) :
    encode j = c ∧ j.WellFormed := by
  obtain ⟨hr, hf, hd, rfl⟩ := checkedDecode_eq_ok.mp h
  obtain ⟨henc, hwf⟩ := hi hf hd
  have hc : encode i = c :=
    calc encode i = assemble o (fField c) 0 (opdField c) := henc
      _ = assemble (opcField c) (fField c) (rsvField c) (opdField c) := by rw [BitVec.eq_of_toNat_eq ho, hr]; rfl
      _ = c := assemble_fields c
  exact ⟨hc, hwf⟩

/-- An arm for a command with no operand: F and OPD are 0. -/
theorem encode_of_checkedDecode_bare {c : Command} (o : BitVec 8) {i j : Instr} (ho : (opcField c).toNat = o.toNat)
    (h : checkedDecode c (fField c == 0#8) (opdField c == 0#32) i = .ok j)
    (henc : encode i = assemble o 0 0 0) (hwf : i.WellFormed) : encode j = c ∧ j.WellFormed :=
  encode_of_checkedDecode ho h fun hf hd => by rw [eq_of_beq hf, eq_of_beq hd]; exact ⟨henc, hwf⟩

/-- An arm for a command whose operand is all of OPD: F is 0. -/
theorem encode_of_checkedDecode_opd {c : Command} (o : BitVec 8) {i j : Instr} (ho : (opcField c).toNat = o.toNat)
    (h : checkedDecode c (fField c == 0#8) true i = .ok j)
    (henc : encode i = assemble o 0 0 (opdField c)) (hwf : i.WellFormed) : encode j = c ∧ j.WellFormed :=
  encode_of_checkedDecode ho h fun hf _ => by rw [eq_of_beq hf]; exact ⟨henc, hwf⟩

/-- An arm for a command whose operand is in F: OPD is 0. -/
theorem encode_of_checkedDecode_f {c : Command} (o : BitVec 8) {fOk : Bool} {i j : Instr}
    (ho : (opcField c).toNat = o.toNat) (h : checkedDecode c fOk (opdField c == 0#32) i = .ok j)
    (henc : fOk = true → encode i = assemble o (fField c) 0 0) (hwf : fOk = true → i.WellFormed) :
    encode j = c ∧ j.WellFormed :=
  encode_of_checkedDecode ho h fun hf hd => by rw [eq_of_beq hd]; exact ⟨henc hf, hwf hf⟩

/-- Along the arms of the decoder, in its order (30_encoding.md R76). -/
theorem encode_of_decode {c : Command} {i : Instr} (h : decode c = .ok i) : encode i = c ∧ i.WellFormed := by
  simp only [decode] at h
  split at h
  next ho => exact encode_of_checkedDecode_bare 0x00 ho h rfl rfl
  next ho =>
    exact encode_of_checkedDecode_f 0x01 ho h (fun _ => rfl) fun hf =>
      (rdNumberLegal_eq_assignedNumber _).symm.trans hf
  next ho =>
    exact encode_of_checkedDecode (o := 0x02) ho h fun hf _ => ⟨rfl, decide_eq_true (wrNumberLegal_eq_true.mp hf)⟩
  next ho => exact encode_of_checkedDecode_bare 0x03 ho h rfl rfl
  next ho => exact encode_of_checkedDecode_bare 0x04 ho h rfl rfl
  next ho =>
    exact encode_of_checkedDecode_f 0x10 ho h (fun _ => rfl) fun hf =>
      decide_eq_true (presetNumberLegal_eq_true.mp hf)
  next ho => exact encode_of_checkedDecode_bare 0x11 ho h rfl rfl
  next ho => exact encode_of_checkedDecode_opd 0x12 ho h rfl rfl
  next ho => exact encode_of_checkedDecode_opd 0x13 ho h rfl rfl
  next ho => exact encode_of_checkedDecode_bare 0x14 ho h rfl rfl
  next ho => exact encode_of_checkedDecode_bare 0x18 ho h rfl rfl
  next ho => exact encode_of_checkedDecode_opd 0x19 ho h rfl rfl
  next ho =>
    exact encode_of_checkedDecode_f 0x20 ho h
      (fun hf => congrArg (assemble 0x20 · 0 0) (flStartField_of_legal _ hf).1)
      fun hf => decide_eq_true (flStartField_of_legal _ hf).2
  next ho => exact encode_of_checkedDecode_opd 0x21 ho h rfl rfl
  next ho => exact encode_of_checkedDecode_bare 0x22 ho h rfl rfl
  next => cases h

/-- Settles O2: an arm that accepts has fixed every field of the word, so the encoder writes the word again. -/
theorem encodeOfDecode : Obligations.EncodeOfDecode := fun _ _ h => encode_of_decode h

/-! The example words. -/

/-- Settles O3: the decoder computes on each word. -/
theorem exampleWordsDecode : Obligations.ExampleWordsDecode := by
  unfold Obligations.ExampleWordsDecode
  decide

/-! The opcode table. -/

/-- The column `match` holds fifteen different words. -/
theorem opcodeTable_values_nodup : (opcodeTable.map OpcodeRow.value).Nodup := by decide

/-- Settles O4: rows that match one word have one value, and the values differ from row to row. -/
theorem opcodeRowsNeverOverlap : Obligations.OpcodeRowsNeverOverlap := by
  intro c a b ha hb hca hcb
  have hab : a = b := List.inj_on_of_nodup_map opcodeTable_values_nodup ha hb (hca.symm.trans hcb)
  rw [hab]

end Sys2Proof.Proofs.Encoding
end

section
/-! SUPPORT. Proofs of the statements about the functions of the CRC units (40_crc_bitloop.md R101, R103, R110, R112),
and the law that ties the table step to the shift step (41_crc_table.md R133). Masked shifts are read as numbers modulo
`2^w`. -/

namespace Sys2Proof.Proofs.CrcArithmetic

open Sys2Proof.Machine

/-! Masked shifts as numbers. -/

/-- The mask is the modulus `2^w` (00_scope.md R9). -/
theorem toNat_and_mask (w : Width) (v : Word) : (v &&& w.mask).toNat = v.toNat % 2 ^ w.bits := by
  rw [BitVec.toNat_and, w.toNat_mask, Nat.and_two_pow_sub_one_eq_mod]

theorem xor_and_mask (w : Width) (u v : Word) : (u ^^^ v) &&& w.mask = (u &&& w.mask) ^^^ (v &&& w.mask) := by
  apply BitVec.eq_of_toNat_eq
  simp only [BitVec.toNat_and, BitVec.toNat_xor, Nat.and_xor_distrib_right]

/-- A masked shift loses the bits above the width, and no width is above the 32 bits of a register. -/
theorem toNat_shiftLeft_and_mask (w : Width) (v : Word) (k : Nat) :
    ((v <<< k) &&& w.mask).toNat = 2 ^ k * v.toNat % 2 ^ w.bits := by
  rw [toNat_and_mask, BitVec.toNat_shiftLeft, Nat.shiftLeft_eq,
    Nat.mod_mod_of_dvd _ (Nat.pow_dvd_pow 2 w.bits_bounds.2), Nat.mul_comm]

theorem shiftLeft_and_mask_shiftLeft_and_mask (w : Width) (v : Word) (j k : Nat) :
    (((v <<< j) &&& w.mask) <<< k) &&& w.mask = (v <<< (j + k)) &&& w.mask := by
  apply BitVec.eq_of_toNat_eq
  rw [toNat_shiftLeft_and_mask, toNat_shiftLeft_and_mask, toNat_shiftLeft_and_mask, Nat.mul_mod_mod, ← Nat.mul_assoc,
    ← Nat.pow_add, Nat.add_comm k j]

/-- A shift by the width or more leaves nothing. -/
theorem shiftLeft_and_mask_eq_zero {w : Width} {k : Nat} (v : Word) (hk : w.bits ≤ k) :
    (v <<< k) &&& w.mask = 0#32 := by
  apply BitVec.eq_of_toNat_eq
  rw [toNat_shiftLeft_and_mask]
  exact Nat.mod_eq_zero_of_dvd ((Nat.pow_dvd_pow 2 hk).mul_right _)

/-! Shifts without the mask (40_crc_bitloop.md R101). -/

/-- The body of the shift loop on unbounded numbers, with no mask (40_crc_bitloop.md R101, the document's wording). -/
def unmaskedShift (poly : Word) (w : Width) (u : Nat) : Nat :=
  if u.testBit (w.bits - 1) then (2 * u) ^^^ poly.toNat else 2 * u

/-- One masked shift of the low `w` bits is the unmasked shift, reduced: both look at bit `w-1`, and XOR goes bit by
bit. -/
theorem toNat_crcShift1 {poly : Word} {w : Width} (hp : poly.toNat < 2 ^ w.bits) {r : Word} {u : Nat}
    (hr : r.toNat = u % 2 ^ w.bits) : (crcShift1 poly w r).toNat = unmaskedShift poly w u % 2 ^ w.bits := by
  have htop : r.getLsbD (w.bits - 1) = u.testBit (w.bits - 1) := by
    have hb := w.bits_bounds
    rw [← BitVec.testBit_toNat, hr, Nat.testBit_mod_two_pow, decide_eq_true (by omega), Bool.true_and]
  have hshift : ((r <<< 1) &&& w.mask).toNat = 2 * u % 2 ^ w.bits := by
    rw [toNat_shiftLeft_and_mask, hr, Nat.pow_one, Nat.mul_mod_mod]
  rw [crcShift1, unmaskedShift, htop]
  split
  · rw [BitVec.toNat_xor, hshift, Nat.xor_mod_two_pow, Nat.mod_eq_of_lt hp]
  · exact hshift

theorem toNat_crcShifts {poly : Word} {w : Width} (hp : poly.toNat < 2 ^ w.bits) (k : Nat) {r : Word} {u : Nat}
    (hr : r.toNat = u % 2 ^ w.bits) : (crcShifts poly w k r).toNat = (unmaskedShift poly w)^[k] u % 2 ^ w.bits := by
  induction k generalizing r u with
  | zero => exact hr
  | succ k ih => exact ih (toNat_crcShift1 hp hr)

/-- Settles O16, by induction on the number of shifts: the masked register is the unmasked number modulo `2^w`. -/
theorem maskAfterTheEighthShiftSuffices : Obligations.MaskAfterTheEighthShiftSuffices :=
  fun _ _ _ k hp hr => toNat_crcShifts hp k (Nat.mod_eq_of_lt hr).symm

/-! Finalisation (40_crc_bitloop.md R103). -/

/-- The final mask does nothing to values that fit. -/
theorem crcFinal_eq {r x : Word} {w : Width} (hr : r.toNat < 2 ^ w.bits) (hx : x.toNat < 2 ^ w.bits) (refout : Bool) :
    crcFinal r x refout w = if refout then reflectW (r ^^^ x) w else r ^^^ x := by
  rw [crcFinal]
  split
  · exact Width.and_mask_of_lt (reflectW_lt _ w)
  · exact Width.and_mask_of_lt (Width.xor_lt hr hx)

theorem crcFinal_true_eq_xor {r x : Word} {w : Width} (hr : r.toNat < 2 ^ w.bits) (hx : x.toNat < 2 ^ w.bits) :
    crcFinal r x true w = reflectW r w ^^^ reflectW x w := by
  rw [crcFinal_eq hr hx, if_pos rfl, reflectW_xor]

/-- The final XOR of a preset is 0 or all ones, so it is its own reflection (40_crc_bitloop.md R104). -/
theorem reflectW_presetXorout {p : BitVec 8} {cfg : Word × Word × Word × CrcCtrl} (h : presetOfNumber? p = some cfg) :
    reflectW cfg.2.2.1 cfg.2.2.2.width = cfg.2.2.1 := by
  unfold presetOfNumber? at h
  split at h
  · cases h; decide
  · cases h; decide
  · cases h; decide +kernel
  · cases h

/-- Settles O17: reflection goes over XOR, so the two orders differ by the reflection of the final XOR alone. -/
theorem finalXorComesBeforeReflection : Obligations.FinalXorComesBeforeReflection := by
  refine ⟨fun r x w hr hx => ⟨?plain, ?reflected, crcFinal_true_eq_xor hr hx⟩,
    fun x w hx => ⟨fun h => ?forward, fun h r hr => ?backward⟩,
    fun p poly init xorout ctrl h => reflectW_presetXorout h⟩
  case plain => exact crcFinal_eq hr hx false
  case reflected => exact crcFinal_eq hr hx true
  case forward =>
    have h0 := h 0#32 (Nat.two_pow_pos _)
    rw [crcFinal_true_eq_xor (Nat.two_pow_pos _) hx] at h0
    exact (BitVec.xor_right_inj _).mp h0
  case backward => rw [crcFinal_true_eq_xor hr hx, h]

/-! A byte at the top of the register (20_memory.md R52). -/

theorem byteAtTop_lt (b : Byte) (w : Width) : (byteAtTop b w).toNat < 2 ^ w.bits := by
  rw [w.lt_iff_bits]
  intro i hi
  rw [getLsbD_byteAtTop, decide_eq_false (by omega), Bool.false_and]

/-- Eight shifts move a byte at the top out of the width. -/
theorem byteAtTop_shiftLeft_and_mask (b : Byte) (w : Width) : (byteAtTop b w <<< 8) &&& w.mask = 0#32 := by
  rw [byteAtTop, ← BitVec.shiftLeft_add, Nat.sub_add_cancel w.bits_bounds.1]
  exact shiftLeft_and_mask_eq_zero _ le_rfl

/-! Polynomial 0 (40_crc_bitloop.md R112). -/

theorem unmaskedShift_poly_zero (w : Width) : unmaskedShift 0#32 w = (2 * ·) := by
  funext u
  rw [unmaskedShift, BitVec.toNat_zero, Nat.xor_zero, ite_self]

theorem crcShifts_poly_zero {w : Width} (k : Nat) {r : Word} (hr : r.toNat < 2 ^ w.bits) :
    crcShifts 0#32 w k r = (r <<< k) &&& w.mask := by
  apply BitVec.eq_of_toNat_eq
  rw [toNat_crcShifts (Nat.two_pow_pos _) k (Nat.mod_eq_of_lt hr).symm, unmaskedShift_poly_zero, mul_left_iterate,
    toNat_shiftLeft_and_mask]

theorem tableEntry_poly_zero (w : Width) (b : Byte) : tableEntry 0#32 w b = 0#32 := by
  rw [tableEntry, crcShift8, BitVec.zero_xor, crcShifts_poly_zero 8 (byteAtTop_lt b w), byteAtTop_shiftLeft_and_mask]

theorem crcShift8_poly_zero {w : Width} {r : Word} (b : Byte) (hr : r.toNat < 2 ^ w.bits) :
    crcShift8 r b 0#32 w = (r <<< 8) &&& w.mask := by
  rw [crcShift8_eq_xor_tableEntry, tableEntry_poly_zero, BitVec.xor_zero, crcShifts_poly_zero 8 hr]

theorem crcFold_poly_zero {w : Width} (refin : Bool) (d : List Byte) {init : Word} (hi : init.toNat < 2 ^ w.bits) :
    crcFold d 0#32 init refin w = (init <<< (8 * d.length)) &&& w.mask := by
  induction d generalizing init with
  | nil => exact (Width.and_mask_of_lt hi).symm.trans (by rw [List.length_nil, Nat.mul_zero, BitVec.shiftLeft_zero])
  | cons b d ih =>
    calc crcFold (b :: d) 0#32 init refin w
        = crcFold d 0#32 ((init <<< 8) &&& w.mask) refin w := by
          rw [← crcShift8_poly_zero (crcIn b refin) hi]; rfl
      _ = (((init <<< 8) &&& w.mask) <<< (8 * d.length)) &&& w.mask := ih (w.and_mask_lt _)
      _ = (init <<< (8 * (b :: d).length)) &&& w.mask := by
          rw [shiftLeft_and_mask_shiftLeft_and_mask, List.length_cons, Nat.mul_succ, Nat.add_comm 8]

/-- Settles O22: with polynomial 0 a byte is a shift by 8, and `w/8` bytes shift by the whole width. -/
theorem polynomialZeroClearsTheRegister : Obligations.PolynomialZeroClearsTheRegister := by
  refine ⟨fun w r b hr => crcShift8_poly_zero b hr, fun w init refin d hi hd => ?_⟩
  have hbits : w.bits = 8 * (w.bits / 8) := by cases w <;> rfl
  rw [crcFold_poly_zero refin d hi, hd, ← hbits]
  exact shiftLeft_and_mask_eq_zero _ le_rfl

/-! The table step (41_crc_table.md R132, R133). -/

/-- While no set bit reaches the top of the width, `k` shifts use no polynomial. -/
theorem crcShifts_of_lt (poly : Word) {w : Width} {k : Nat} (hk : k ≤ w.bits) {v : Word}
    (hv : v.toNat < 2 ^ (w.bits - k)) : crcShifts poly w k v = (v <<< k) &&& w.mask := by
  induction k generalizing v with
  | zero => rw [BitVec.shiftLeft_zero, Width.and_mask_of_lt hv]; rfl
  | succ k ih =>
    have htop : v.getLsbD (w.bits - 1) = false := by
      rw [← BitVec.testBit_toNat]
      exact Nat.testBit_lt_two_pow (hv.trans_le (Nat.pow_le_pow_right (by omega) (by omega)))
    have hlt : ((v <<< 1) &&& w.mask).toNat < 2 ^ (w.bits - k) := by
      rw [toNat_shiftLeft_and_mask, show w.bits - k = 1 + (w.bits - (k + 1)) by omega, Nat.pow_add]
      exact (Nat.mod_le _ _).trans_lt (Nat.mul_lt_mul_of_pos_left hv (by omega))
    calc crcShifts poly w (k + 1) v
        = crcShifts poly w k ((v <<< 1) &&& w.mask) := by rw [crcShifts, crcShift1, htop, if_neg Bool.false_ne_true]
      _ = (((v <<< 1) &&& w.mask) <<< k) &&& w.mask := ih (by omega) hlt
      _ = (v <<< (k + 1)) &&& w.mask := by rw [shiftLeft_and_mask_shiftLeft_and_mask, Nat.add_comm 1 k]

/-- The top byte of a register (41_crc_table.md R132). -/
def topByte (r : Word) (w : Width) : Byte := (r >>> (w.bits - 8)).setWidth 8

/-- A register without its top byte is below `2^(w-8)`. -/
theorem xor_topByte_lt {w : Width} {r : Word} (hr : r.toNat < 2 ^ w.bits) :
    (r ^^^ byteAtTop (topByte r w) w).toNat < 2 ^ (w.bits - 8) := by
  apply Nat.lt_pow_two_of_testBit
  intro i hi
  rw [BitVec.testBit_toNat, BitVec.getLsbD_xor, getLsbD_byteAtTop, topByte, BitVec.getLsbD_setWidth,
    BitVec.getLsbD_ushiftRight, Nat.add_sub_cancel' hi]
  by_cases hlt : i < w.bits
  · simp [hi, hlt, show i - (w.bits - 8) < 8 by omega]
  · simp [hlt, (w.lt_iff_bits r).1 hr i (by omega)]

/-- The eight shifts of a register: its top byte gives a table entry, the rest moves up (41_crc_table.md R133). -/
theorem crcShifts_eight (poly : Word) {w : Width} {r : Word} (hr : r.toNat < 2 ^ w.bits) :
    crcShifts poly w 8 r = ((r <<< 8) &&& w.mask) ^^^ tableEntry poly w (topByte r w) := by
  have hsplit : (r ^^^ byteAtTop (topByte r w) w) ^^^ byteAtTop (topByte r w) w = r := by
    rw [BitVec.xor_assoc, BitVec.xor_self, BitVec.xor_zero]
  have hrest : crcShifts poly w 8 (r ^^^ byteAtTop (topByte r w) w) = (r <<< 8) &&& w.mask := by
    rw [crcShifts_of_lt poly w.bits_bounds.1 (xor_topByte_lt hr), BitVec.shiftLeft_xor_distrib, xor_and_mask,
      byteAtTop_shiftLeft_and_mask, BitVec.xor_zero]
  calc crcShifts poly w 8 r
      = crcShifts poly w 8 ((r ^^^ byteAtTop (topByte r w) w) ^^^ byteAtTop (topByte r w) w) := by rw [hsplit]
    _ = ((r <<< 8) &&& w.mask) ^^^ tableEntry poly w (topByte r w) := by
      rw [crcShifts_xor, hrest, tableEntry, crcShift8, BitVec.zero_xor]

theorem tableEntry_xor (poly : Word) (w : Width) (a b : Byte) :
    tableEntry poly w (a ^^^ b) = tableEntry poly w a ^^^ tableEntry poly w b := by
  simp only [tableEntry, crcShift8, BitVec.zero_xor, byteAtTop_xor, crcShifts_xor]

/-- The table step is the shift step (41_crc_table.md R133). -/
theorem crcStepT_eq_crcShift8 {w : Width} {r : Word} (poly : Word) (b : Byte) (hr : r.toNat < 2 ^ w.bits) :
    crcStepT r b poly w = crcShift8 r b poly w := by
  calc crcStepT r b poly w
      = ((r <<< 8) &&& w.mask) ^^^ tableEntry poly w (topByte r w ^^^ b) := rfl
    _ = crcShifts poly w 8 r ^^^ tableEntry poly w b := by
      rw [tableEntry_xor, ← BitVec.xor_assoc, ← crcShifts_eight poly hr]
    _ = crcShift8 r b poly w := (crcShift8_eq_xor_tableEntry r b poly w).symm

/-! The reference values (40_crc_bitloop.md R110). -/

/-- Settles O23: the whole-buffer function computes each value. -/
theorem referenceValuesHold : Obligations.ReferenceValuesHold := by
  rintro d rfl
  exact ⟨by decide +kernel, by decide +kernel, by decide +kernel⟩

end Sys2Proof.Proofs.CrcArithmetic
end

section
/-! SUPPORT. The decode check of a command rule (`DecodesAs`), from the arm of the decoder that has the opcode
(30_encoding.md R77). -/

namespace Sys2Proof.Proofs.DecodeChecks

open Sys2Proof.Machine Sys2Proof.Proofs.Inversion

/-- Everything the checks after the opcode can do when one of them fails: reject. -/
theorem checkedDecode_eq_error {c : Command} {fOk opdOk : Bool} {i : Instr}
    (h : ¬(rsvField c = 0#16 ∧ fOk = true ∧ opdOk = true)) : ∃ e, checkedDecode c fOk opdOk i = .error e := by
  cases hd : checkedDecode c fOk opdOk i with
  | error e => exact ⟨e, rfl⟩
  | ok j =>
    obtain ⟨hr, hf, ho, -⟩ := checkedDecode_eq_ok.mp hd
    exact absurd ⟨hr, hf, ho⟩ h

/-- An opcode decodes as a command rule says when its arm makes the rule's checks of F and OPD. -/
theorem decodesAs_of_arm {opc : BitVec 8} {fOk : BitVec 8 → Prop} {opdOk : Word → Prop} {i : BitVec 8 → Word → Instr}
    (fCheck : BitVec 8 → Bool) (opdCheck : Word → Bool)
    (harm : ∀ c, opcField c = opc →
      decode c = checkedDecode c (fCheck (fField c)) (opdCheck (opdField c)) (i (fField c) (opdField c)))
    (hf : ∀ f, fCheck f = true ↔ fOk f) (hd : ∀ d, opdCheck d = true ↔ opdOk d) : DecodesAs opc fOk opdOk i := by
  intro c hc
  rw [harm c hc, ← hf, ← hd]
  refine ⟨fun ⟨hr, hF, hD⟩ => checkedDecode_eq_ok.mpr ⟨hr, hF, hD, rfl⟩, fun hbad s rest hs => ?_⟩
  obtain ⟨e, he⟩ := checkedDecode_eq_error hbad
  exact step_of_decode_error hs ((harm c hc).trans he)

/-- The arm of a command that takes no operand (30_encoding.md R72). -/
theorem decodesAs_bare {opc : BitVec 8} {i : Instr}
    (harm : ∀ c, opcField c = opc → decode c = checkedDecode c (fField c == 0#8) (opdField c == 0#32) i) :
    DecodesAs opc (· = 0#8) (· = 0#32) (fun _ _ => i) :=
  decodesAs_of_arm (· == 0#8) (· == 0#32) harm (fun _ => beq_iff_eq) (fun _ => beq_iff_eq)

/-- The arm of a command whose operand is all of OPD (30_encoding.md R72, R74). -/
theorem decodesAs_opd {opc : BitVec 8} {i : Word → Instr}
    (harm : ∀ c, opcField c = opc → decode c = checkedDecode c (fField c == 0#8) true (i (opdField c))) :
    DecodesAs opc (· = 0#8) (fun _ => True) (fun _ d => i d) :=
  decodesAs_of_arm (· == 0#8) (fun _ => true) harm (fun _ => beq_iff_eq) (fun _ => iff_of_true rfl trivial)

end Sys2Proof.Proofs.DecodeChecks
end

section
/-! SUPPORT. Proofs of the statements about the commands of the CRC bit-loop unit (40_crc_bitloop.md R104-R107) and
about what the CRC and table commands leave alone. -/

namespace Sys2Proof.Proofs.CrcCommands

open Sys2Proof.Machine Sys2Proof.Proofs.Inversion Sys2Proof.Proofs.Invariants Sys2Proof.Proofs.Reset
open Sys2Proof.Proofs.Writers Sys2Proof.Proofs.Frames Sys2Proof.Proofs.Encoding Sys2Proof.Proofs.CrcArithmetic
open Sys2Proof.Proofs.DecodeChecks

/-! CRC.PRESET. -/

theorem execCrcPreset_of_two_lt {p : BitVec 8} (hp : 2 < p.toNat) (s : State) :
    exec (.crcPreset p) s = .next (reject .illegal s) := by
  have hnone : presetOfNumber? p = none := by
    rw [← Option.not_isSome_iff_eq_none, presetOfNumber?_isSome, decide_eq_true_iff]
    omega
  simp only [exec, execCrcPreset, hnone, raise]

/-- Settles O30: each preset number names its configuration, and a number above 2 names none. -/
theorem crcPresetLoadsTheDefaults : Obligations.CrcPresetLoadsTheDefaults := by
  refine ⟨?decodes, fun s => ⟨⟨⟨.w8, false, false⟩, rfl, rfl⟩, ⟨⟨.w16, false, false⟩, rfl, rfl⟩,
    ⟨⟨.w32, true, true⟩, rfl, rfl⟩⟩, fun p s hp => execCrcPreset_of_two_lt hp s, by decide⟩
  case decodes =>
    exact decodesAs_of_arm presetNumberLegal (· == 0#32) (fun c hc => by simp only [decode, hc]; rfl)
      (fun _ => presetNumberLegal_eq_true) (fun _ => beq_iff_eq)

/-! CRC.START. -/

/-- CRC.START with a staged configuration that fits (40_crc_bitloop.md R105). -/
theorem exec_crcStart_of_fits {s : State} (hf : stagedFits s = true) :
    exec .crcStart s = .next (answer (s.crcInit.setWidth 64) (openCrcSession s)) := if_pos hf

theorem exec_crcStart_of_not_fits {s : State} (hf : ¬stagedFits s = true) :
    exec .crcStart s = .next (reject .range s) := if_neg hf

/-- Settles O31: the range check passes exactly when the three staged values fit, and then the session is the staged
configuration. -/
theorem crcStartLatchesTheConfiguration : Obligations.CrcStartLatchesTheConfiguration := by
  refine ⟨decodesAs_bare fun c hc => by simp only [decode, hc]; rfl,
    fun s hfits => exec_crcStart_of_fits ((stagedFits_iff s).2 hfits),
    fun s hbig => exec_crcStart_of_not_fits fun hfits => ?range,
    fun s => ⟨_, _, rfl, exec_crcStart_of_fits rfl, rfl⟩, by decide⟩
  case range =>
    obtain ⟨hpoly, hinit, hxor⟩ := (stagedFits_iff s).1 hfits
    omega

/-! CRC.BYTEB. -/

theorem exec_crcByteB_of_not_byte {opd : Word} (h : 256 ≤ opd.toNat) (s : State) :
    exec (.crcByteB opd) s = .next (reject .type s) := by
  simp only [exec, execCrcByteB, byteOperand?_none h, raise]

/-- CRC.BYTEB in an open session (40_crc_bitloop.md R106). -/
theorem exec_crcByteB_of_open {s : State} {opd : Word} {b : Byte} {r : Word} (hb : byteOperand? opd = some b)
    (ha : s.aActive = true) (hr : r = crcShift8 s.crcReg (crcIn b s.aRefin) s.aPoly s.aWc) :
    exec (.crcByteB opd) s = .next (answer (r.setWidth 64) { s with crcReg := r }) := by
  simp only [exec, execCrcByteB, hb, if_pos ha, hr, respond]

theorem crcShift8_w8 (r poly : Word) (b : Byte) :
    crcShift8 r b poly .w8 = crcShifts poly .w8 8 (r ^^^ b.setWidth 32) := by
  rw [crcShift8, byteAtTop, Width.bits_w8, Nat.sub_self, BitVec.shiftLeft_zero]

/-- Shifting is linear, so it keeps 0. -/
theorem crcShift8_zero (poly : Word) (w : Width) : crcShift8 0#32 0#8 poly w = 0#32 := by
  have h := tableEntry_xor poly w 0#8 0#8
  rwa [BitVec.xor_self, BitVec.xor_self] at h

/-- Settles O32: the checks of the operand and of the session, the step, and its corner cases. -/
theorem crcBytebShiftsInOneByte : Obligations.CrcBytebShiftsInOneByte := by
  refine ⟨decodesAs_opd fun c hc => by simp only [decode, hc]; rfl, fun opd s h => exec_crcByteB_of_not_byte h s,
    fun b s h => execCrcByteB_of_idle h b, fun b s r ha hr => exec_crcByteB_of_open (byteOperand?_setWidth b) ha hr,
    crcShift8_w8, fun r b w hr => crcShift8_poly_zero b hr, crcShift8_zero, by decide, fun s ha hw hp hi hr => ?crc8⟩
  case crc8 =>
    have hstep : 0x97#32 = crcShift8 s.crcReg (crcIn 0x31#8 s.aRefin) s.aPoly s.aWc := by
      rw [hw, hp, hi, hr]
      decide +kernel
    exact exec_crcByteB_of_open (byteOperand?_setWidth 0x31#8) ha hstep

/-! CRC.FINAL. -/

/-- Settles O33: CRC.FINAL reads no register it writes, so a second one computes the same. -/
theorem crcFinalFinalisesWithoutClosing : Obligations.CrcFinalFinalisesWithoutClosing := by
  refine ⟨decodesAs_bare fun c hc => by simp only [decode, hc]; rfl, fun s h => execCrcFinal_of_idle h,
    fun s out ha ho => ?final, fun s ha hw hx hrefout hr => ?ccittFalse⟩
  case final =>
    subst ho
    exact ⟨exec_crcFinal_of_open ha, exec_crcFinal_of_open ha⟩
  case ccittFalse =>
    rw [exec_crcFinal_of_open ha, hw, hx, hrefout, hr]
    rfl

/-! What a command leaves alone. -/

/-- A command that is no FL.START, no FL.BYTE and no RST keeps the Fletcher session (10_state.md R31). -/
theorem sameFletcherSession_of_succeeds {s u : State} {i : Instr} {d : DWord} (hu : Succeeds s i d u)
    (hstart : ∀ wc ord, i ≠ .flStart wc ord) (hbyte : ∀ opd, i ≠ .flByte opd) (hrst : i ≠ .rst) :
    SameFletcherSession s u := by
  cases hu with
  | flStart _ => exact absurd rfl (hstart _ _)
  | flByte _ _ => exact absurd rfl (hbyte _)
  | rst => exact absurd rfl hrst
  | wr hw => rw [writeReg?_frame hw]; constructor <;> rfl
  | _ => constructor <;> simp

/-- A command that is no CRC.BYTET, no table command and no RST keeps the hidden table (10_state.md R38). -/
theorem sameTable_of_succeeds {s u : State} {i : Instr} {d : DWord} (hu : Succeeds s i d u)
    (hbyte : ∀ opd, i ≠ .crcByteT opd) (hbuild : i ≠ .tabBuild) (hread : ∀ opd, i ≠ .tabRead opd) (hrst : i ≠ .rst) :
    SameTable s u := by
  cases hu with
  | crcByteT _ _ _ => exact absurd rfl (hbyte _)
  | tabBuild _ => exact absurd rfl hbuild
  | tabRead _ _ => exact absurd rfl (hread _)
  | rst => exact absurd rfl hrst
  | wr hw => rw [writeReg?_frame hw]; constructor <;> rfl
  | _ => constructor <;> simp

/-- No command takes a word from the stream beside its own (20_memory.md R60). -/
theorem hostStream_of_succeeds {s u : State} {i : Instr} {d : DWord} (hu : Succeeds s i d u) :
    u.hostStream = s.hostStream := by
  cases hu with
  | wr hw => rw [writeReg?_frame hw]
  | _ => simp

/-- Only a reset draws free values for the table (10_state.md R45). -/
theorem freeDraws_of_succeeds {s u : State} {i : Instr} {d : DWord} (hu : Succeeds s i d u) (hrst : i ≠ .rst) :
    u.freeDraws = s.freeDraws := by
  cases hu with
  | rst => exact absurd rfl hrst
  | wr hw => rw [writeReg?_frame hw]
  | _ => simp

/-- Settles O49: a rejection keeps every register but STATUS; of a success, each part of the state has its own
writers, and the CRC and table commands are among them only where the statement says. -/
theorem crcCommandsKeepTheRest : Obligations.CrcCommandsKeepTheRest := by
  intro i s t hi h
  have hrst : i ≠ .rst := by rintro rfl; simp at hi
  have hstaged : SameStaged s t :=
    sameStaged_of_exec h (by rintro r v rfl; simp at hi) (by rintro p rfl; simp at hi) hrst
  refine ⟨hstaged, ?_⟩
  cases answers_of_exec h with
  | rejected e =>
    exact ⟨⟨rfl, rfl, rfl, rfl, rfl, rfl, rfl⟩, rfl, rfl, rfl, fun _ => ⟨rfl, rfl, rfl, rfl, rfl, rfl⟩, fun _ => rfl,
      fun _ => rfl, fun _ => ⟨rfl, rfl, rfl, rfl⟩⟩
  | succeeded hu =>
    refine ⟨?fletcher, ?flOut, (freeDraws_of_succeeds hu hrst).symm, (hostStream_of_succeeds hu).symm,
      fun hstart => ?parameters, fun hfinal => ?crcOut, fun hi' => ?crcReg, fun hi' => ?table⟩
    case fletcher =>
      exact { sameFletcherSession_of_succeeds hu (by rintro wc ord rfl; simp at hi) (by rintro opd rfl; simp at hi)
        hrst with }
    case flOut => exact (flOut_of_succeeds hu (by rintro rfl; simp at hi) hrst).symm
    case parameters => exact { sameCrcParameters_of_succeeds hu hstart hrst with }
    case crcOut => exact (crcOut_of_succeeds hu hfinal hrst).symm
    case crcReg =>
      refine (crcReg_of_succeeds hu (by rintro rfl; simp at hi') hrst ?_).symm
      rintro opd (rfl | rfl) <;> simp at hi'
    case table =>
      exact { sameTable_of_succeeds hu (by rintro opd rfl; simp at hi') (by rintro rfl; simp at hi')
        (by rintro opd rfl; simp at hi') hrst with }

end Sys2Proof.Proofs.CrcCommands
end

section
/-! SUPPORT. Proofs of the statements about whole CRC sessions (40_crc_bitloop.md R108, R109): from an open session,
every word but CRC.START and RST takes the register one byte on, or leaves it, and what remains is the whole-buffer function
of the bytes still to come, begun at the present register. -/

namespace Sys2Proof.Proofs.CrcSessions

open Sys2Proof.Machine Sys2Proof.Proofs.Inversion Sys2Proof.Proofs.Invariants Sys2Proof.Proofs.HiddenTable
open Sys2Proof.Proofs.Writers Sys2Proof.Proofs.Frames Sys2Proof.Proofs.Encoding Sys2Proof.Proofs.CrcArithmetic
open Sys2Proof.Proofs.CrcCommands

/-- A step on a command word takes that word from the stream, and no other (20_memory.md R60). -/
theorem hostStream_of_step {s t : State} {c : Command} {rest : List HostEvent}
    (hs : s.hostStream = .command c :: rest) (h : step s = .next t) : t.hostStream = rest := by
  rcases step_command_cases hs h with ⟨e, rfl⟩ | ⟨i, d, u, -, hu, rfl⟩
  · rfl
  · exact hostStream_of_succeeds hu

/-- The words that feed a byte (40_crc_bitloop.md R106, 41_crc_table.md R135). -/
theorem crcDataByte?_eq_some {c : Command} {b : Byte} (h : crcDataByte? c = some b) :
    ∃ opd, byteOperand? opd = some b ∧ (decode c = .ok (.crcByteB opd) ∨ decode c = .ok (.crcByteT opd)) := by
  unfold crcDataByte? at h
  split at h
  · next hd => exact ⟨_, h, .inl hd⟩
  · next hd => exact ⟨_, h, .inr hd⟩
  · cases h

/-- CRC.BYTET in an open session that fits, with a coherent table: the step it makes is the shift step (41_crc_table.md
R133, R135). -/
theorem exec_crcByteT_of_open {s : State} {opd : Word} {b : Byte} {r : Word} (hc : TableCoherent s)
    (hfits : s.crcReg.toNat < 2 ^ s.aWc.bits) (hb : byteOperand? opd = some b) (ha : s.aActive = true)
    (hr : r = crcShift8 s.crcReg (crcIn b s.aRefin) s.aPoly s.aWc) :
    exec (.crcByteT opd) s = .next (answer (r.setWidth 64) { ensureTable s.aPoly s.aWc s with crcReg := r }) := by
  have hstep : combineEntry s.crcReg
      (lutCell (tableIndex s.crcReg (crcIn b s.aRefin) s.aWc) (ensureTable s.aPoly s.aWc s)) s.aWc = r := by
    rw [lutCell_ensureTable _ _ hc, hr]
    exact crcStepT_eq_crcShift8 s.aPoly _ hfits
  simp only [exec, execCrcByteT, hb, if_pos ha, hstep, respond]

/-- A word that feeds a byte takes the register of an open session one shift step on, by either unit. -/
theorem crcReg_of_step_dataByte {s t : State} {c : Command} {b : Byte} {rest : List HostEvent} (hinv : s.Inv)
    (ha : s.aActive = true) (hs : s.hostStream = .command c :: rest) (hb : crcDataByte? c = some b)
    (h : step s = .next t) : t.crcReg = crcShift8 s.crcReg (crcIn b s.aRefin) s.aPoly s.aWc := by
  obtain ⟨opd, hopd, hd | hd⟩ := crcDataByte?_eq_some hb
  · have hexec := exec_crcByteB_of_open (s := { s with hostStream := rest }) hopd ha rfl
    cases ((step_of_decode_ok hs hd).trans hexec).symm.trans h
    rfl
  · obtain ⟨-, -, hfits⟩ := hinv.crcSessionFits ha
    have hexec := exec_crcByteT_of_open (s := { s with hostStream := rest }) hinv.tableCoherent hfits hopd ha rfl
    cases ((step_of_decode_ok hs hd).trans hexec).symm.trans h
    rfl

/-- The result still to come is the same before a word `c` and after it: the words `cs` feed the bytes of `c :: cs` but
for the byte of `c`, which the register has taken in. -/
theorem crc_of_step {s t : State} {c : Command} {rest : List HostEvent} (cs : List Command)
    (hinv : crcDataByte? c ≠ none → s.Inv) (ha : s.aActive = true) (hs : s.hostStream = .command c :: rest)
    (hnot : startsOrResetsCrc c = false) (h : step s = .next t) :
    crc (cs.filterMap crcDataByte?) t.aPoly t.crcReg t.aRefin t.aRefout t.aXorout t.aWc =
      crc ((c :: cs).filterMap crcDataByte?) s.aPoly s.crcReg s.aRefin s.aRefout s.aXorout s.aWc := by
  obtain ⟨-, hwc, hrefin, hrefout, hpoly, hxor⟩ := onlyStartAndResetChangeTheCrcParameters s t c rest hs h hnot
  rw [← hwc, ← hrefin, ← hrefout, ← hpoly, ← hxor]
  cases hb : crcDataByte? c with
  | none =>
    have hrst : decode c ≠ .ok .rst := fun hd => (ne_of_startsOrResetsCrc_eq_false hd hnot).2 rfl
    obtain ⟨hreg, -, -⟩ := resultRegistersHaveOneWriter s t c rest hs h hrst
    rw [List.filterMap_cons_none hb, hreg hnot hb]
  | some b =>
    rw [List.filterMap_cons_some hb, crcReg_of_step_dataByte (hinv (by simp [hb])) ha hs hb h]
    rfl

/-- The rest of a session, by induction on the words before CRC.FINAL. The invariants are asked for only if a word
feeds a byte. -/
theorem run_openSession {cs : List Command} {rest : List HostEvent} {s : State}
    (hinv : (∃ c ∈ cs, crcDataByte? c ≠ none) → s.Inv) (ha : s.aActive = true)
    (hnot : ∀ c ∈ cs, startsOrResetsCrc c = false)
    (hs : s.hostStream = commands (cs ++ [encode .crcFinal]) ++ rest) :
    ∃ t : State, Host.Core.run Sys2Proof.core (cs.length + 1) s = .next t ∧ t.hostStream = rest ∧
      t.crcOut = crc (cs.filterMap crcDataByte?) s.aPoly s.crcReg s.aRefin s.aRefout s.aXorout s.aWc ∧
      t.resp = okResponse (t.crcOut.setWidth 64) := by
  induction cs generalizing s with
  | nil =>
    have hfinal := (step_of_decode_ok hs (decode_encode (i := .crcFinal) rfl)).trans (exec_crcFinal_of_open ha)
    exact ⟨_, run_succ 0 hfinal, rfl, rfl, rfl⟩
  | cons c cs ih =>
    obtain ⟨hc, hcs⟩ := List.forall_mem_cons.mp hnot
    obtain ⟨u, hu⟩ := exists_step_eq_next s
    have hua : u.aActive = true :=
      (onlyStartAndResetChangeTheCrcParameters s u c _ hs hu hc).aActive.symm.trans ha
    have huinv : (∃ c' ∈ cs, crcDataByte? c' ≠ none) → u.Inv := fun ⟨c', hmem, hb⟩ =>
      everyStepKeepsTheInvariants s u (hinv ⟨c', List.mem_cons_of_mem c hmem, hb⟩) hu
    obtain ⟨t, hrun, hrest, hout, hresp⟩ := ih huinv hua hcs (hostStream_of_step hs hu)
    refine ⟨t, (run_succ _ hu).trans hrun, hrest, hout.trans ?_, hresp⟩
    exact crc_of_step cs (fun hb => hinv ⟨c, List.mem_cons_self, hb⟩) ha hs hc hu

/-- A whole session: CRC.START opens it with the staged configuration. -/
theorem run_session {cs : List Command} {rest : List HostEvent} {s : State}
    (hinv : (∃ c ∈ cs, crcDataByte? c ≠ none) → s.Inv) (hfits : stagedFits s = true)
    (hnot : ∀ c ∈ cs, startsOrResetsCrc c = false)
    (hs : s.hostStream = commands (encode .crcStart :: cs ++ [encode .crcFinal]) ++ rest) :
    ∃ t : State, Host.Core.run Sys2Proof.core (cs.length + 2) s = .next t ∧ t.hostStream = rest ∧
      t.crcOut = crc (cs.filterMap crcDataByte?) s.crcPoly s.crcInit s.crcCtrl.refin s.crcCtrl.refout s.crcXorout
        s.crcCtrl.width ∧
      t.resp = okResponse (t.crcOut.setWidth 64) := by
  have hstart := (step_of_decode_ok hs (decode_encode (i := .crcStart) rfl)).trans (exec_crcStart_of_fits hfits)
  rw [run_succ _ hstart]
  exact run_openSession (fun hb => everyStepKeepsTheInvariants _ _ (hinv hb) hstart) rfl hnot rfl

/-- Settles O42: the result to come is, once CRC.START has opened the session, the whole-buffer function begun at the
staged initial value; no word before CRC.FINAL changes it. -/
theorem crcSessionComputesTheWholeBuffer : Obligations.CrcSessionComputesTheWholeBuffer :=
  fun s _ _ hinv hpoly hinit hxor hnot hs =>
    run_session (fun _ => hinv) ((stagedFits_iff s).2 ⟨hpoly, hinit, hxor⟩) hnot hs

/-- Settles O43: with no byte the whole-buffer function is the finalised initial value, which fits. -/
theorem emptyCrcIsTheFinalisedInitialValue : Obligations.EmptyCrcIsTheFinalisedInitialValue := by
  intro s cs rest hpoly hinit hxor hcs hs
  have hnodata : cs.filterMap crcDataByte? = [] := List.filterMap_eq_nil_iff.mpr fun c hc => (hcs c hc).2
  obtain ⟨t, hrun, hrest, hout, hresp⟩ :=
    run_session (fun ⟨c, hc, hb⟩ => absurd (hcs c hc).2 hb) ((stagedFits_iff s).2 ⟨hpoly, hinit, hxor⟩)
      (fun c hc => (hcs c hc).1) hs
  refine ⟨t, hrun, hrest, hout.trans ?_, hresp⟩
  rw [hnodata]
  exact crcFinal_eq hinit hxor _

end Sys2Proof.Proofs.CrcSessions
end

section
/-! SUPPORT. Proofs of the statements about the table function and the table step (41_crc_table.md R131, R133). -/

namespace Sys2Proof.Proofs.CrcTable

open Sys2Proof.Machine Sys2Proof.Proofs.CrcArithmetic Sys2Proof.Proofs.CrcCommands

/-! The basis entries (41_crc_table.md R131). -/

theorem tableEntry_zero (poly : Word) (w : Width) : tableEntry poly w 0#8 = 0#32 := crcShift8_zero poly w

/-- The last of several shifts. -/
theorem crcShifts_succ (poly : Word) (w : Width) (k : Nat) (r : Word) :
    crcShifts poly w (k + 1) r = crcShift1 poly w (crcShifts poly w k r) := by
  induction k generalizing r with
  | zero => rfl
  | succ k ih => exact ih (crcShift1 poly w r)

/-- Seven shifts take the byte 1 to the top bit of the register, before any feedback. -/
theorem crcShifts_seven_byteAtTop_one (poly : Word) (w : Width) :
    crcShifts poly w 7 (byteAtTop 1#8 w) = 1#32 <<< (w.bits - 1) := by
  have hlt : (byteAtTop 1#8 w).toNat < 2 ^ (w.bits - 7) := by cases w <;> decide
  have hbits := w.bits_bounds
  rw [crcShifts_of_lt poly (by omega) hlt]
  cases w <;> rfl

/-- A register with its top bit alone shifts to the feedback alone. -/
theorem crcShift1_topBit (poly : Word) (w : Width) : crcShift1 poly w (1#32 <<< (w.bits - 1)) = poly := by
  have hbits := w.bits_bounds
  have htop : (1#32 <<< (w.bits - 1)).getLsbD (w.bits - 1) = true := by cases w <;> rfl
  rw [crcShift1, if_pos htop, ← BitVec.shiftLeft_add, shiftLeft_and_mask_eq_zero _ (by omega), BitVec.zero_xor]

theorem tableEntry_one (poly : Word) (w : Width) : tableEntry poly w 1#8 = poly := by
  rw [tableEntry, crcShift8, BitVec.zero_xor, crcShifts_succ, crcShifts_seven_byteAtTop_one, crcShift1_topBit]

/-- A byte is the XOR of its set bits. -/
theorem foldl_xor_setBits : ∀ i : Byte,
    (List.range 8).foldl (fun a k => if i.getLsbD k then a ^^^ 1#8 <<< k else a) 0#8 = i := by
  decide +kernel

/-- The entry of a byte is the XOR of the entries of its set bits: the table function takes XOR to XOR, so it goes
through the fold (41_crc_table.md R131). -/
theorem tableEntry_eq_foldl_basis (poly : Word) (w : Width) (i : Byte) :
    tableEntry poly w i =
      (List.range 8).foldl (fun v k => if i.getLsbD k then v ^^^ tableEntry poly w (1#8 <<< k) else v) 0#32 := by
  conv_lhs => rw [← foldl_xor_setBits i]
  rw [← tableEntry_zero poly w]
  refine (List.foldl_hom (tableEntry poly w) fun a k => ?_).symm
  rw [apply_ite (tableEntry poly w), tableEntry_xor]

/-- Settles O18: shifting is linear, and the entry of 1 is the feedback of its one set bit. -/
theorem tableIsLinear : Obligations.TableIsLinear :=
  fun poly w _ => ⟨tableEntry_zero poly w, tableEntry_one poly w, tableEntry_xor poly w,
    tableEntry_eq_foldl_basis poly w⟩

/-! Bytes fed through either step (41_crc_table.md R133). -/

/-- One byte into the register: through the table if its flag is set, else through the eight shifts. -/
def feedByte (poly : Word) (refin : Bool) (w : Width) (r : Word) (x : Byte × Bool) : Word :=
  if x.2 then crcStepT r (crcIn x.1 refin) poly w else crcShift8 r (crcIn x.1 refin) poly w

theorem feedByte_eq_crcShift8 {w : Width} {r : Word} (poly : Word) (refin : Bool) (x : Byte × Bool)
    (hr : r.toNat < 2 ^ w.bits) : feedByte poly refin w r x = crcShift8 r (crcIn x.1 refin) poly w := by
  rw [feedByte, crcStepT_eq_crcShift8 poly _ hr, ite_self]

/-- The register fits before every byte, so the flags do not show in the register after the bytes. -/
theorem foldl_feedByte_eq_crcFold {poly : Word} {w : Width} (hp : poly.toNat < 2 ^ w.bits) (refin : Bool)
    (d : List (Byte × Bool)) {init : Word} (hi : init.toNat < 2 ^ w.bits) :
    d.foldl (feedByte poly refin w) init = crcFold (d.map (·.1)) poly init refin w := by
  induction d generalizing init with
  | nil => rfl
  | cons x d ih =>
    rw [List.foldl_cons, feedByte_eq_crcShift8 poly refin x hi, ih (crcShift8_lt hp _ _)]
    rfl

/-- Settles O19: the two steps agree on a register that fits, and by induction on the bytes it always fits. -/
theorem tableStepEqualsShiftStep : Obligations.TableStepEqualsShiftStep := by
  refine ⟨fun w poly r b _ hr => crcStepT_eq_crcShift8 poly b hr, fun d w poly init xorout refin refout hp hi => ?_⟩
  exact congrArg (crcFinal · xorout refout w) (foldl_feedByte_eq_crcFold hp refin d hi)

end Sys2Proof.Proofs.CrcTable
end

section
/-! SUPPORT. Proofs of the statements about the commands of the CRC table unit (41_crc_table.md R133, R135-R137, R141):
in a state with a coherent table, a cell is read as the table function's value. -/

namespace Sys2Proof.Proofs.TableCommands

open Sys2Proof.Machine Sys2Proof.Proofs.Invariants Sys2Proof.Proofs.HiddenTable Sys2Proof.Proofs.Reset
open Sys2Proof.Proofs.CrcCommands Sys2Proof.Proofs.CrcSessions Sys2Proof.Proofs.DecodeChecks Sys2Proof.Proofs.CrcTable

/-! CRC.BYTET. -/

theorem exec_crcByteT_of_not_byte {opd : Word} (h : 256 ≤ opd.toNat) (s : State) :
    exec (.crcByteT opd) s = .next (reject .type s) := by
  simp only [exec, execCrcByteT, byteOperand?_none h, raise]

/-- CRC.BYTET in an open session with a coherent table, whatever the register holds (41_crc_table.md R135). -/
theorem exec_crcByteT_of_coherent {s : State} {opd : Word} {b : Byte} {r : Word} (hc : TableCoherent s)
    (hb : byteOperand? opd = some b) (ha : s.aActive = true)
    (hr : r = crcStepT s.crcReg (crcIn b s.aRefin) s.aPoly s.aWc) :
    exec (.crcByteT opd) s = .next (answer (r.setWidth 64) { ensureTable s.aPoly s.aWc s with crcReg := r }) := by
  simp only [exec, execCrcByteT, hb, if_pos ha, lutCell_ensureTable _ _ hc, hr, respond, crcStepT]

/-- Settles O20: both commands make the same checks; in an open session both take the shift step, and CRC.BYTET's table
is all that differs. -/
theorem bytetAndBytebAreInterchangeable : Obligations.BytetAndBytebAreInterchangeable := by
  intro opd s hfits hc
  rcases byteOperand?_cases opd with ⟨b, rfl, hb⟩ | ⟨hbig, -⟩
  · cases ha : s.aActive with
    | false => exact ⟨_, _, execCrcByteT_of_idle ha b, execCrcByteB_of_idle ha b, rfl⟩
    | true =>
      obtain ⟨-, -, hreg⟩ := hfits ha
      exact ⟨_, _, exec_crcByteT_of_open hc hreg hb ha rfl, exec_crcByteB_of_open hb ha rfl,
        congrArg (answer _) (withoutCache_ensureTable_withCrcReg _ _ _ s)⟩
  · exact ⟨_, _, exec_crcByteT_of_not_byte hbig s, exec_crcByteB_of_not_byte hbig s, rfl⟩

/-- Settles O34: the checks of the operand and of the session, then the table step; what it leaves is the state with the
session's table ensured, which writes the cache alone. -/
theorem crcBytetStepsThroughTheTable : Obligations.CrcBytetStepsThroughTheTable := by
  refine ⟨decodesAs_opd fun c hc => by simp only [decode, hc]; rfl, fun opd s h => exec_crcByteT_of_not_byte h s,
    fun b s h => execCrcByteT_of_idle h b, fun b s r hc ha hr => ?step, fun s hc ha hw hp hi hreg => ?crc32⟩
  case step =>
    obtain ⟨cells, htable, hcells⟩ := ensureTable_eq s.aPoly s.aWc hc
    refine ⟨cells, ?_, hcells⟩
    rw [exec_crcByteT_of_coherent hc (byteOperand?_setWidth b) ha hr, htable]
    rfl
  case crc32 =>
    have hstep : 0x1208C43E#32 = crcStepT s.crcReg (crcIn 0x31#8 s.aRefin) s.aPoly s.aWc := by
      rw [hw, hp, hi, hreg]
      decide +kernel
    exact ⟨_, exec_crcByteT_of_coherent hc (byteOperand?_setWidth 0x31#8) ha hstep, rfl, rfl⟩

/-! TAB.BUILD. -/

/-- TAB.BUILD with a staged polynomial that fits (41_crc_table.md R136). -/
theorem exec_tabBuild_of_fits {s : State} (hf : stagedPolyFits s = true) :
    exec .tabBuild s = .next (answer 0#64 (ensureTable s.crcPoly s.crcCtrl.width s)) := if_pos hf

theorem exec_tabBuild_of_not_fits {s : State} (hf : ¬stagedPolyFits s = true) :
    exec .tabBuild s = .next (reject .range s) := if_neg hf

/-- A polynomial at or above `2^w` fails the range check (60_exceptions.md R201). -/
theorem not_stagedPolyFits {s : State} (h : 2 ^ s.crcCtrl.width.bits ≤ s.crcPoly.toNat) :
    ¬stagedPolyFits s = true := by
  rw [stagedPolyFits_iff]
  exact not_lt_of_ge h

/-- Settles O35: the range check, then the staged key's table ensured, which writes the cache alone. -/
theorem tabBuildChangesOnlyTheCache : Obligations.TabBuildChangesOnlyTheCache := by
  refine ⟨decodesAs_bare fun c hc => by simp only [decode, hc]; rfl,
    fun s h => exec_tabBuild_of_not_fits (not_stagedPolyFits h), fun s hc hf => ?build,
    fun s => ⟨_, _, rfl, exec_tabBuild_of_fits rfl, rfl⟩⟩
  case build =>
    obtain ⟨cells, htable, hcells⟩ := ensureTable_eq s.crcPoly s.crcCtrl.width hc
    refine ⟨cells, ?_, hcells⟩
    rw [exec_tabBuild_of_fits ((stagedPolyFits_iff s).2 hf), htable]
    rfl

/-! TAB.READ. -/

theorem exec_tabRead_of_not_byte {opd : Word} (h : 256 ≤ opd.toNat) (s : State) :
    exec (.tabRead opd) s = .next (reject .type s) := by
  simp only [exec, execTabRead, byteOperand?_none h, raise]

theorem exec_tabRead_of_not_fits {s : State} (hf : ¬stagedPolyFits s = true) (i : Byte) :
    exec (.tabRead (i.setWidth 32)) s = .next (reject .range s) := by
  simp only [exec, execTabRead, byteOperand?_setWidth, if_neg hf, raise]

/-- TAB.READ with a staged polynomial that fits and a coherent table (41_crc_table.md R137). -/
theorem exec_tabRead_of_fits {s : State} (hc : TableCoherent s) (hf : stagedPolyFits s = true) (i : Byte) :
    exec (.tabRead (i.setWidth 32)) s =
      .next (answer ((tableEntry s.crcPoly s.crcCtrl.width i).setWidth 64)
        (ensureTable s.crcPoly s.crcCtrl.width s)) := by
  simp only [exec, execTabRead, byteOperand?_setWidth, if_pos hf, lutCell_ensureTable _ _ hc, respond]

/-- The response of TAB.READ, where the entry is known. -/
theorem exec_tabRead_resp {s : State} (hc : TableCoherent s) (hf : stagedPolyFits s = true) {i : Byte} {v : Word}
    (hv : tableEntry s.crcPoly s.crcCtrl.width i = v) :
    ∃ t : State, exec (.tabRead (i.setWidth 32)) s = .next t ∧ t.resp = okResponse (v.setWidth 64) :=
  ⟨_, exec_tabRead_of_fits hc hf i, by rw [hv]; rfl⟩

/-- Settles O36: the checks of the operand and of the range, then the entry of the staged key's table; the examples are
entries of that table. -/
theorem tabReadRespondsWithTheEntry : Obligations.TabReadRespondsWithTheEntry := by
  refine ⟨decodesAs_opd fun c hc => by simp only [decode, hc]; rfl, fun opd s h => exec_tabRead_of_not_byte h s,
    fun i s h => exec_tabRead_of_not_fits (not_stagedPolyFits h) i, fun i s hc hf => ?read, fun s hc hf => ?entries,
    fun s hc => ?crc32⟩
  case read =>
    obtain ⟨cells, htable, hcells⟩ := ensureTable_eq s.crcPoly s.crcCtrl.width hc
    refine ⟨cells, ?_, hcells⟩
    rw [exec_tabRead_of_fits hc ((stagedPolyFits_iff s).2 hf), htable]
    rfl
  case entries =>
    have hfits := (stagedPolyFits_iff s).2 hf
    obtain ⟨t, ht, htresp⟩ := exec_tabRead_resp hc hfits (tableEntry_zero s.crcPoly s.crcCtrl.width)
    obtain ⟨u, hu, huresp⟩ := exec_tabRead_resp hc hfits (tableEntry_one s.crcPoly s.crcCtrl.width)
    exact ⟨t, u, ht, htresp, hu, huresp⟩
  case crc32 =>
    have hentry : tableEntry 0x04C11DB7#32 .w32 0x80#8 = 0x690CE0EE#32 := by decide +kernel
    obtain ⟨u, hu, huresp⟩ := exec_tabRead_resp (s := answer 0#64
      (loadPreset (0x04C11DB7#32, 0xFFFFFFFF#32, 0xFFFFFFFF#32, ⟨.w32, true, true⟩) s)) hc rfl hentry
    exact ⟨_, u, rfl, hu, huresp⟩

/-- Settles O21: an entry is the result of shifts, which fits; TAB.READ leaves the cell it answers from. -/
theorem tableEntriesFitTheWidth : Obligations.TableEntriesFitTheWidth := by
  refine ⟨fun poly w i hp => tableEntry_lt hp i, fun i s hc hf => ?_⟩
  exact ⟨_, exec_tabRead_of_fits hc ((stagedPolyFits_iff s).2 hf) i, lutCell_ensureTable _ _ hc i, rfl⟩

end Sys2Proof.Proofs.TableCommands
end

section
/-! SUPPORT. Proofs of the statements about the functions of the Fletcher accumulator (42_fletcher.md R151, R152, R157,
R159-R161). A buffer is read group by group: the bytes placed so far in a word, and the sums over the words so far.
Padding adds no byte but 0, which a group reads past the end of the data anyway. -/

namespace Sys2Proof.Proofs.FletcherFunctions

open Sys2Proof.Machine Sys2Proof.Proofs.Invariants

/-! Session constants (42_fletcher.md R150). -/

theorem bytes_le_four (w : Width) : w.bytes ≤ 4 := by cases w <;> decide

/-! Modular addition (42_fletcher.md R151). -/

theorem addM_zero {w : Width} {a : Word} (ha : a.toNat < w.modulus) : addM w a 0#32 = a := by
  apply BitVec.eq_of_toNat_eq
  rw [toNat_addM, BitVec.toNat_zero, Nat.add_zero, Nat.mod_eq_of_lt ha]

/-- A word of all ones adds nothing. -/
theorem addM_allOnes {w : Width} {a m : Word} (ha : a.toNat < w.modulus) (hm : m.toNat = w.modulus) :
    addM w a m = a := by
  apply BitVec.eq_of_toNat_eq
  rw [toNat_addM, hm, Nat.add_mod_right, Nat.mod_eq_of_lt ha]

/-- Below the modulus, adding changes nothing exactly when it adds 0. -/
theorem addM_eq_left_iff {w : Width} {a x : Word} (ha : a.toNat < w.modulus) (hx : x.toNat < w.modulus) :
    addM w a x = a ↔ x = 0#32 := by
  refine ⟨fun h => ?_, fun h => h ▸ addM_zero ha⟩
  apply BitVec.eq_of_toNat_eq
  have hsum : (a.toNat + x.toNat) % w.modulus = a.toNat := by rw [← toNat_addM, h]
  rw [BitVec.toNat_zero]
  by_cases hlt : a.toNat + x.toNat < w.modulus
  · rw [Nat.mod_eq_of_lt hlt] at hsum
    omega
  · rw [Nat.mod_eq_sub_mod (by omega), Nat.mod_eq_of_lt (by omega)] at hsum
    omega

/-- Settles O37: the model's sum is formed on numbers, before the modulus. -/
theorem modularSumIsExact : Obligations.ModularSumIsExact :=
  ⟨fun w a x _ _ => ⟨toNat_addM w a x, addM_lt w a x⟩, fun _ _ _ ha hm => addM_allOnes ha hm⟩

/-! A byte in its word (42_fletcher.md R152). -/

theorem bytePos_lt {w : Width} {k : Nat} (ord : Bool) (hk : k < w.bytes) : bytePos w ord k < w.bytes := by
  unfold bytePos
  split <;> omega

@[simp] theorem byteInWord_zero (w : Width) (ord : Bool) (k : Nat) : byteInWord w ord k 0#8 = 0#32 :=
  BitVec.zero_shiftLeft _

/-- No bit of a byte is lost at its place: no word is longer than a register. -/
theorem toNat_byteInWord {w : Width} {k : Nat} (ord : Bool) (b : Byte) (hk : k < w.bytes) :
    (byteInWord w ord k b).toNat = 2 ^ (8 * bytePos w ord k) * b.toNat := by
  have hpos : 8 + 8 * bytePos w ord k ≤ 32 := by
    have := bytePos_lt ord hk
    have := bytes_le_four w
    omega
  have hlt : 2 ^ (8 * bytePos w ord k) * b.toNat < 2 ^ 32 := by
    refine (Nat.mul_lt_mul_of_pos_left b.isLt (Nat.two_pow_pos _)).trans_le ?_
    rw [← Nat.pow_add, Nat.add_comm]
    exact Nat.pow_le_pow_right (by omega) hpos
  rw [byteInWord, BitVec.toNat_shiftLeft, BitVec.toNat_setWidth_of_le (by omega), Nat.shiftLeft_eq, Nat.mul_comm,
    Nat.mod_eq_of_lt hlt]

/-! The first bytes of a group. -/

/-- Group `g` of a buffer after its first `m` bytes: `wordOfGroup` with the count of bytes left open, which is what
FL_PART holds (42_fletcher.md R152, R154). -/
def partialWord (w : Width) (ord : Bool) (d : List Byte) (g m : Nat) : Word :=
  (List.range m).foldl (fun v j => v ||| byteInWord w ord j (d.getD (g * w.bytes + j) 0#8)) 0#32

theorem wordOfGroup_eq_partialWord (w : Width) (ord : Bool) (d : List Byte) (g : Nat) :
    wordOfGroup w ord d g = partialWord w ord d g w.bytes := rfl

theorem partialWord_succ (w : Width) (ord : Bool) (d : List Byte) (g m : Nat) :
    partialWord w ord d g (m + 1) =
      partialWord w ord d g m ||| byteInWord w ord m (d.getD (g * w.bytes + m) 0#8) := by
  simp only [partialWord, List.range_succ, List.foldl_append, List.foldl_cons, List.foldl_nil]

/-- The first bytes of a group are all that counts of the buffer. -/
theorem partialWord_congr {w : Width} (ord : Bool) {d e : List Byte} {g m : Nat}
    (h : ∀ j < m, d.getD (g * w.bytes + j) 0#8 = e.getD (g * w.bytes + j) 0#8) :
    partialWord w ord d g m = partialWord w ord e g m := by
  induction m with
  | zero => rfl
  | succ m ih => rw [partialWord_succ, partialWord_succ, ih fun j hj => h j (by omega), h m (by omega)]

theorem partialWord_append {w : Width} (ord : Bool) {d : List Byte} {g m : Nat} (h : g * w.bytes + m ≤ d.length)
    (e : List Byte) : partialWord w ord (d ++ e) g m = partialWord w ord d g m :=
  partialWord_congr ord fun j hj => List.getD_append d e 0#8 _ (by omega)

/-- Past the end of the data a group reads zeros, so it places no byte. -/
theorem partialWord_add_of_length_le {w : Width} (ord : Bool) {d : List Byte} {g m : Nat}
    (h : d.length ≤ g * w.bytes + m) (k : Nat) : partialWord w ord d g (m + k) = partialWord w ord d g m := by
  induction k with
  | zero => rfl
  | succ k ih =>
    rw [← Nat.add_assoc, partialWord_succ, ih, List.getD_eq_default d 0#8 (by omega), byteInWord_zero, BitVec.or_zero]

theorem wordOfGroup_of_length_le {w : Width} (ord : Bool) {d : List Byte} {g : Nat} (h : d.length ≤ g * w.bytes) :
    wordOfGroup w ord d g = 0#32 := by
  have hadd := partialWord_add_of_length_le ord (m := 0) h w.bytes
  rwa [Nat.zero_add] at hadd

/-! A whole word as a number (42_fletcher.md R152, 20_memory.md R53). -/

/-- The next byte of the first group, as a number beside the bytes before it. -/
theorem toNat_partialWord_succ {w : Width} (ord : Bool) {d : List Byte} {m : Nat} (hm : m < w.bytes)
    (hd : m < d.length) :
    (partialWord w ord d 0 (m + 1)).toNat =
      2 ^ (8 * bytePos w ord m) * d[m].toNat ||| (partialWord w ord d 0 m).toNat := by
  rw [partialWord_succ, BitVec.toNat_or, toNat_byteInWord ord _ hm, Nat.or_comm, Nat.zero_mul, Nat.zero_add,
    List.getD_eq_getElem d 0#8 hd]

theorem ofDigits_bytes_lt (d : List Byte) : Nat.ofDigits 256 (d.map BitVec.toNat) < 256 ^ d.length := by
  rw [← List.length_map (f := BitVec.toNat)]
  refine Nat.ofDigits_lt_base_pow_length (by decide) fun x hx => ?_
  obtain ⟨b, -, rfl⟩ := List.mem_map.mp hx
  exact b.isLt

/-- Least-significant byte first: the bytes placed are the low digits of the word. -/
theorem toNat_partialWord_lsb {w : Width} {d : List Byte} {m : Nat} (hm : m ≤ w.bytes) (hd : m ≤ d.length) :
    (partialWord w false d 0 m).toNat = Nat.ofDigits 256 ((d.take m).map BitVec.toNat) := by
  induction m with
  | zero => rfl
  | succ m ih =>
    have hlen : (d.take m).length = m := List.length_take_of_le (by omega)
    have hlow : Nat.ofDigits 256 ((d.take m).map BitVec.toNat) < 2 ^ (8 * m) := by
      have hlt := ofDigits_bytes_lt (d.take m)
      rwa [hlen, ← Nat.pow_mul 2 8] at hlt
    calc (partialWord w false d 0 (m + 1)).toNat
        = 2 ^ (8 * m) * d[m].toNat + Nat.ofDigits 256 ((d.take m).map BitVec.toNat) := by
          rw [toNat_partialWord_succ false hm hd, ih (by omega) (by omega), Nat.two_pow_add_eq_or_of_lt hlow]; rfl
      _ = Nat.ofDigits 256 ((d.take (m + 1)).map BitVec.toNat) := by
          rw [List.take_succ_eq_append_getElem hd, List.map_append, Nat.ofDigits_append, List.length_map, hlen,
            List.map_singleton, Nat.ofDigits_singleton, Nat.pow_mul, Nat.add_comm]

/-- Most-significant byte first: the bytes placed are the high digits of the word. -/
theorem toNat_partialWord_msb {w : Width} {d : List Byte} {m : Nat} (hm : m ≤ w.bytes) (hd : m ≤ d.length) :
    (partialWord w true d 0 m).toNat =
      2 ^ (8 * (w.bytes - m)) * (d.take m).foldl (fun n b => 256 * n + b.toNat) 0 := by
  induction m with
  | zero => rfl
  | succ m ih =>
    have hstep : 2 ^ (8 * (w.bytes - m)) = 2 ^ (8 * (w.bytes - 1 - m)) * 256 := by
      rw [show 8 * (w.bytes - m) = 8 * (w.bytes - 1 - m) + 8 by omega, Nat.pow_add]
    have hlow : 2 ^ (8 * (w.bytes - 1 - m)) * d[m].toNat < 2 ^ (8 * (w.bytes - m)) := by
      rw [hstep]
      exact Nat.mul_lt_mul_of_pos_left d[m].isLt (Nat.two_pow_pos _)
    rw [toNat_partialWord_succ true hm hd, ih (by omega) (by omega), bytePos, if_pos rfl, Nat.or_comm,
      ← Nat.two_pow_add_eq_or_of_lt hlow, List.take_succ_eq_append_getElem hd, List.foldl_append, List.foldl_cons,
      List.foldl_nil, hstep, show w.bytes - (m + 1) = w.bytes - 1 - m by omega]
    ring

/-- Settles O38: in a whole group the bytes are all the digits, lowest first or highest first. -/
theorem wordAssemblyFollowsTheByteOrder : Obligations.WordAssemblyFollowsTheByteOrder := by
  refine ⟨fun w d hd => ⟨?lsb, ?msb⟩, fun b => rfl⟩
  case lsb =>
    rw [wordOfGroup_eq_partialWord, toNat_partialWord_lsb le_rfl hd.ge, ← hd, List.take_length,
      Nat.ofDigits_eq_foldr, List.foldr_map]
    simp
  case msb =>
    rw [wordOfGroup_eq_partialWord, toNat_partialWord_msb le_rfl hd.ge, ← hd, List.take_length, Nat.sub_self,
      Nat.mul_zero, Nat.pow_zero, Nat.one_mul]

/-! The sums over the first words of a buffer. -/

/-- The sums over the first `q` groups of a buffer: `fletcherSums` with the count of words left open, which is what
FL_SUM1 and FL_SUM2 hold (42_fletcher.md R154, R156). -/
def sumsOfWords (w : Width) (ord : Bool) (d : List Byte) (q : Nat) : Word × Word :=
  (List.range q).foldl (fun sums g => addWord w sums (wordOfGroup w ord d g)) (0#32, 0#32)

theorem sumsOfWords_zero (w : Width) (ord : Bool) (d : List Byte) : sumsOfWords w ord d 0 = (0#32, 0#32) := rfl

theorem sumsOfWords_succ (w : Width) (ord : Bool) (d : List Byte) (q : Nat) :
    sumsOfWords w ord d (q + 1) = addWord w (sumsOfWords w ord d q) (wordOfGroup w ord d q) := by
  simp only [sumsOfWords, List.range_succ, List.foldl_append, List.foldl_cons, List.foldl_nil]

/-- Both sums stay below the modulus (42_fletcher.md R151). -/
theorem sumsOfWords_lt (w : Width) (ord : Bool) (d : List Byte) (q : Nat) :
    (sumsOfWords w ord d q).1.toNat < w.modulus ∧ (sumsOfWords w ord d q).2.toNat < w.modulus := by
  cases q with
  | zero => exact ⟨modulus_pos w, modulus_pos w⟩
  | succ q => rw [sumsOfWords_succ]; exact ⟨addM_lt _ _ _, addM_lt _ _ _⟩

/-- The first groups are all that counts of the buffer. -/
theorem sumsOfWords_congr {w : Width} (ord : Bool) {d e : List Byte} {q : Nat}
    (h : ∀ g < q, wordOfGroup w ord d g = wordOfGroup w ord e g) : sumsOfWords w ord d q = sumsOfWords w ord e q := by
  induction q with
  | zero => rfl
  | succ q ih => rw [sumsOfWords_succ, sumsOfWords_succ, ih fun g hg => h g (by omega), h q (by omega)]

theorem sumsOfWords_append {w : Width} (ord : Bool) {d : List Byte} {q : Nat} (h : q * w.bytes ≤ d.length)
    (e : List Byte) : sumsOfWords w ord (d ++ e) q = sumsOfWords w ord d q := by
  refine sumsOfWords_congr ord fun g hg => partialWord_append ord ?_ e
  rw [← Nat.succ_mul]
  exact (Nat.mul_le_mul_right _ hg).trans h

/-! Padding (42_fletcher.md R156). -/

/-- A zero byte at the end is what a group reads there without it. -/
theorem getD_append_replicate_zero (d : List Byte) (k i : Nat) :
    (d ++ List.replicate k 0#8).getD i 0#8 = d.getD i 0#8 := by
  by_cases hi : i < d.length
  · exact List.getD_append d _ _ i hi
  · rw [List.getD_append_right d _ _ i (by omega), List.getD_eq_default d _ (by omega)]
    simp

theorem sumsOfWords_append_replicate_zero (w : Width) (ord : Bool) (d : List Byte) (k q : Nat) :
    sumsOfWords w ord (d ++ List.replicate k 0#8) q = sumsOfWords w ord d q :=
  sumsOfWords_congr ord fun _ _ => partialWord_congr ord fun _ _ => getD_append_replicate_zero d k _

/-- How many words a buffer of `k` bytes has, the last one zero-padded. -/
def wordCount (w : Width) (k : Nat) : Nat := (k + padCount w k) / w.bytes

theorem wordCount_of_aligned {w : Width} {k : Nat} (h : k % w.bytes = 0) : wordCount w k = k / w.bytes := by
  rw [wordCount, padCount, h, Nat.sub_zero, Nat.mod_self, Nat.add_zero]

theorem wordCount_of_incomplete {w : Width} {k : Nat} (h : k % w.bytes ≠ 0) : wordCount w k = k / w.bytes + 1 := by
  have hr := Nat.mod_lt k (bytes_pos w)
  have hk := Nat.div_add_mod k w.bytes
  rw [wordCount, padCount, Nat.mod_eq_of_lt (by omega),
    show k + (w.bytes - k % w.bytes) = w.bytes * (k / w.bytes + 1) by rw [Nat.mul_succ]; omega,
    Nat.mul_div_cancel_left _ (bytes_pos w)]

/-- The last byte is in the word after the whole words before it. -/
theorem wordCount_succ (w : Width) (k : Nat) : wordCount w (k + 1) = k / w.bytes + 1 := by
  by_cases h : (k + 1) % w.bytes = 0
  · rw [wordCount_of_aligned h, Nat.succ_div_of_dvd (Nat.dvd_of_mod_eq_zero h)]
  · rw [wordCount_of_incomplete h, Nat.succ_div_of_not_dvd fun hd => h (Nat.mod_eq_zero_of_dvd hd)]

/-- The whole-buffer sums need no padding: they are the sums over all words of the data itself. -/
theorem fletcherSums_eq_sumsOfWords (w : Width) (ord : Bool) (d : List Byte) :
    fletcherSums d w ord = sumsOfWords w ord d (wordCount w d.length) := by
  simp only [fletcherSums, List.length_append, List.length_replicate]
  exact sumsOfWords_append_replicate_zero w ord d _ _

theorem fletcherSums_lt (w : Width) (ord : Bool) (d : List Byte) :
    (fletcherSums d w ord).1.toNat < w.modulus ∧ (fletcherSums d w ord).2.toNat < w.modulus := by
  rw [fletcherSums_eq_sumsOfWords]
  exact sumsOfWords_lt w ord d _

/-! A zero byte at the end of the data (42_fletcher.md R161). -/

theorem fletcherSums_append_zero (w : Width) (ord : Bool) (d : List Byte) :
    fletcherSums (d ++ [0#8]) w ord = sumsOfWords w ord d (d.length / w.bytes + 1) := by
  rw [fletcherSums_eq_sumsOfWords, List.length_append, List.length_singleton, wordCount_succ]
  exact sumsOfWords_append_replicate_zero w ord d 1 _

/-- In an incomplete word the zero byte stands where padding put one. -/
theorem fletcherSums_append_zero_of_incomplete {w : Width} (ord : Bool) {d : List Byte} (h : d.length % w.bytes ≠ 0) :
    fletcherSums (d ++ [0#8]) w ord = fletcherSums d w ord := by
  rw [fletcherSums_append_zero, fletcherSums_eq_sumsOfWords, wordCount_of_incomplete h]

/-- At a word boundary the zero byte makes a new word of value 0. -/
theorem fletcherSums_append_zero_of_aligned {w : Width} (ord : Bool) {d : List Byte} (h : d.length % w.bytes = 0) :
    fletcherSums (d ++ [0#8]) w ord =
      ((fletcherSums d w ord).1, addM w (fletcherSums d w ord).2 (fletcherSums d w ord).1) := by
  have hzero : wordOfGroup w ord d (d.length / w.bytes) = 0#32 :=
    wordOfGroup_of_length_le ord (Nat.div_mul_cancel (Nat.dvd_of_mod_eq_zero h)).ge
  obtain ⟨h1, -⟩ := fletcherSums_lt w ord d
  rw [fletcherSums_append_zero, sumsOfWords_succ, ← wordCount_of_aligned h, ← fletcherSums_eq_sumsOfWords,
    wordCount_of_aligned h, hzero, addWord, addM_zero h1]

/-- Packed sums below the modulus are equal only if the sums are. -/
theorem packSums_left_inj {w : Width} {s1 s2 s2' : Word} (h1 : s1.toNat < w.modulus) (h2 : s2.toNat < w.modulus)
    (h2' : s2'.toNat < w.modulus) : packSums w s2 s1 = packSums w s2' s1 ↔ s2 = s2' := by
  refine ⟨fun h => BitVec.eq_of_toNat_eq ?_, fun h => h ▸ rfl⟩
  obtain ⟨-, -, hdiv⟩ := packSums_parts w h1 h2
  obtain ⟨-, -, hdiv'⟩ := packSums_parts w h1 h2'
  rw [← hdiv, h, hdiv']

/-- Settles O45: a zero byte is a padding byte, or a word of value 0, which adds the first sum to the second. -/
theorem appendedZeroByteChangesTheSumOnlyAtABoundary :
    Obligations.AppendedZeroByteChangesTheSumOnlyAtABoundary := by
  intro w ord d
  refine ⟨fun h => ?incomplete, fun h => ?aligned⟩
  case incomplete => rw [fletcher, fletcherSums_append_zero_of_incomplete ord h, fletcher]
  case aligned =>
    obtain ⟨h1, h2⟩ := fletcherSums_lt w ord d
    rw [fletcher, fletcherSums_append_zero_of_aligned ord h, fletcher]
    refine ⟨rfl, not_congr ?_⟩
    rw [packSums_left_inj h1 (addM_lt _ _ _) h2, addM_eq_left_iff h2 h1]

/-! The range of a result (42_fletcher.md R157, R159, R160). -/

theorem packSums_zero (w : Width) : packSums w 0#32 0#32 = 0#64 := by cases w <;> rfl

theorem fletcher_nil (w : Width) (ord : Bool) : fletcher [] w ord = 0#64 := by
  rw [fletcher, fletcherSums_eq_sumsOfWords, List.length_nil, wordCount_of_aligned (Nat.zero_mod _), Nat.zero_div,
    sumsOfWords_zero, packSums_zero]

/-- One byte makes a word of Fletcher-16, whose place is the same in both orders. -/
theorem wordOfGroup_w8 (d : List Byte) (g : Nat) : wordOfGroup .w8 false d g = wordOfGroup .w8 true d g := rfl

/-- Settles O46: with no data there is no word; each sum is a remainder modulo M. -/
theorem fletcherResultsStayInRange : Obligations.FletcherResultsStayInRange := by
  refine ⟨fletcher_nil, fun d => ?order, fun d w ord => ?range⟩
  case order => simp only [fletcher, fletcherSums, wordOfGroup_w8]
  case range =>
    obtain ⟨h1, h2⟩ := fletcherSums_lt w ord d
    obtain ⟨hlt, hmod, hdiv⟩ := packSums_parts w h1 h2
    rw [fletcher, hmod, hdiv]
    exact ⟨hlt, h1, h2⟩

end Sys2Proof.Proofs.FletcherFunctions
end

section
/-! SUPPORT. Proofs of the statements about the commands of the Fletcher accumulator (42_fletcher.md R153-R155, R162):
what each one does in an open session, what it leaves alone, and what it looks at. -/

namespace Sys2Proof.Proofs.FletcherCommands

open Sys2Proof.Machine Sys2Proof.Proofs.Inversion Sys2Proof.Proofs.Invariants Sys2Proof.Proofs.Reset
open Sys2Proof.Proofs.Writers Sys2Proof.Proofs.Frames Sys2Proof.Proofs.Encoding Sys2Proof.Proofs.DecodeChecks
open Sys2Proof.Proofs.CrcCommands Sys2Proof.Proofs.FletcherFunctions

/-! FL.START. -/

/-- FL.START with a width code opens a session, whatever session was open (42_fletcher.md R153). -/
theorem exec_flStart (w : Width) (ord : Bool) (s : State) :
    exec (.flStart w.code ord) s = .next (answer 0#64 (openFletcherSession w ord s)) := by
  simp only [exec, execFlStart, Width.ofCode?_code, respond]

/-- The check of F in FL.START, as numbers: F[7:3] is 0 and the width code is not 3 (42_fletcher.md R153). -/
theorem flStartFieldLegal_iff : ∀ f : BitVec 8, flStartFieldLegal f = true ↔ f.toNat < 8 ∧ f.toNat % 4 ≠ 3 := by
  decide +kernel

/-- Settles O39: the decoder's check of F, and the session FL.START opens. -/
theorem flStartOpensASession : Obligations.FlStartOpensASession := by
  refine ⟨?decodes, exec_flStart, fun ord s => rfl, by decide⟩
  case decodes =>
    exact decodesAs_of_arm flStartFieldLegal (· == 0#32) (fun c hc => by simp only [decode, hc]; rfl)
      flStartFieldLegal_iff (fun _ => beq_iff_eq)

/-! FL.BYTE. -/

theorem exec_flByte_of_not_byte {opd : Word} (h : 256 ≤ opd.toNat) (s : State) :
    exec (.flByte opd) s = .next (reject .type s) := by
  simp only [exec, execFlByte, byteOperand?_none h, raise]

/-- FL.BYTE in an open session (42_fletcher.md R154). -/
theorem exec_flByte_of_open {s : State} {opd : Word} {b : Byte} (hb : byteOperand? opd = some b)
    (ha : s.fActive = true) :
    exec (.flByte opd) s =
      .next (answer (packSums s.fWc (takeFletcherByte b s).flSum2 (takeFletcherByte b s).flSum1)
        (takeFletcherByte b s)) := by
  simp only [exec, execFlByte, hb, if_pos ha, respond, takeFletcherByte_fWc]

/-- FL.BYTE of the byte that completes a word: the word goes into both sums (42_fletcher.md R154). -/
theorem exec_flByte_complete {s : State} {opd : Word} {b : Byte} {part sum1 sum2 : Word}
    (hb : byteOperand? opd = some b) (ha : s.fActive = true) (hn : (s.fNpart + 1#3).toNat = s.fWc.bytes)
    (hpart : part = s.flPart ||| byteInWord s.fWc s.fOrd s.fNpart.toNat b)
    (h1 : sum1 = addM s.fWc s.flSum1 part) (h2 : sum2 = addM s.fWc s.flSum2 sum1) :
    exec (.flByte opd) s =
      .next (answer (packSums s.fWc sum2 sum1)
        { s with flSum1 := sum1, flSum2 := sum2, flPart := 0#32, fNpart := 0#3 }) := by
  subst hpart h1 h2
  rw [exec_flByte_of_open hb ha, takeFletcherByte_complete b hn]

/-- FL.BYTE of a byte that leaves the word incomplete: it waits in FL_PART (42_fletcher.md R154). -/
theorem exec_flByte_incomplete {s : State} {opd : Word} {b : Byte} {part : Word}
    (hb : byteOperand? opd = some b) (ha : s.fActive = true) (hn : (s.fNpart + 1#3).toNat ≠ s.fWc.bytes)
    (hpart : part = s.flPart ||| byteInWord s.fWc s.fOrd s.fNpart.toNat b) :
    exec (.flByte opd) s =
      .next (answer (packSums s.fWc s.flSum2 s.flSum1) { s with flPart := part, fNpart := s.fNpart + 1#3 }) := by
  subst hpart
  rw [exec_flByte_of_open hb ha, takeFletcherByte_incomplete b hn]

/-- A register that holds the exact sum modulo M holds `addM` (42_fletcher.md R151). -/
theorem eq_addM {w : Width} {a x sum : Word} (h : sum.toNat = (a.toNat + x.toNat) % w.modulus) : sum = addM w a x :=
  BitVec.eq_of_toNat_eq (h.trans (toNat_addM w a x).symm)

/-- Settles O40: the checks of the operand and of the session, then the byte at its place, in a word it completes or
not. -/
theorem flByteAccumulatesOneByte : Obligations.FlByteAccumulatesOneByte := by
  refine ⟨decodesAs_opd fun c hc => by simp only [decode, hc]; rfl, fun opd s h => exec_flByte_of_not_byte h s,
    fun b s h => execFlByte_of_idle h b, fun b s p n part sum1 sum2 ha hrange hn hp hpart h1 h2 => ?byte,
    fun s ha hw ho hk hpart h1 h2 => ?fletcher32⟩
  case byte =>
    subst hn hp
    have hb := byteOperand?_setWidth b
    have hcount := toNat_fNpart_succ hrange
    have hsum1 : sum1 = addM s.fWc s.flSum1 part := eq_addM h1
    refine ⟨fun hfull => ?complete, fun hfull => ?incomplete, fun hones => ?allOnes⟩
    case complete => exact exec_flByte_complete hb ha (hcount.trans hfull) hpart hsum1 (eq_addM h2)
    case incomplete => exact exec_flByte_incomplete hb ha (fun h => hfull (hcount.symm.trans h)) hpart
    case allOnes =>
      obtain ⟨hlt, -, -, -⟩ := hrange
      exact hsum1.trans (addM_allOnes hlt hones)
  case fletcher32 =>
    have hfull : (s.fNpart + 1#3).toNat = s.fWc.bytes := by rw [hk, hw]; rfl
    have hword : 0x6261#32 = s.flPart ||| byteInWord s.fWc s.fOrd s.fNpart.toNat 0x62#8 := by
      rw [hpart, hw, ho, hk]; decide
    have hsum1 : 0x6261#32 = addM s.fWc s.flSum1 0x6261#32 := by rw [hw, h1]; decide
    have hsum2 : 0x6261#32 = addM s.fWc s.flSum2 0x6261#32 := by rw [hw, h2]; decide
    have hdata : packSums s.fWc 0x6261#32 0x6261#32 = 0x62616261#64 := by rw [hw]; decide
    exact hdata ▸ exec_flByte_complete (byteOperand?_setWidth 0x62#8) ha hfull hword hsum1 hsum2

/-! FL.FINAL. -/

/-- With an incomplete word, the result takes it into a copy of the sums (42_fletcher.md R155). -/
theorem fletcherResult_of_incomplete {s : State} (h : 0 < s.fNpart.toNat) :
    fletcherResult s =
      packSums s.fWc (addM s.fWc s.flSum2 (addM s.fWc s.flSum1 s.flPart)) (addM s.fWc s.flSum1 s.flPart) := by
  simp only [fletcherResult, if_pos h, addWord]

/-- At a word boundary the result is the sums (42_fletcher.md R155). -/
theorem fletcherResult_of_aligned {s : State} (h : ¬0 < s.fNpart.toNat) :
    fletcherResult s = packSums s.fWc s.flSum2 s.flSum1 := by
  simp only [fletcherResult, if_neg h]

/-- The result packs the two sums the rule of FL.FINAL names (42_fletcher.md R155). -/
theorem fletcherResult_eq {s : State} {s1 s2 : Word}
    (h1 : s1.toNat = if 0 < s.fNpart.toNat then (s.flSum1.toNat + s.flPart.toNat) % s.fWc.modulus else s.flSum1.toNat)
    (h2 : s2.toNat = if 0 < s.fNpart.toNat then (s.flSum2.toNat + s1.toNat) % s.fWc.modulus else s.flSum2.toNat) :
    fletcherResult s = packSums s.fWc s2 s1 := by
  by_cases h : 0 < s.fNpart.toNat
  · rw [if_pos h] at h1 h2
    rw [fletcherResult_of_incomplete h, ← eq_addM h1, ← eq_addM h2]
  · rw [if_neg h] at h1 h2
    rw [fletcherResult_of_aligned h, BitVec.eq_of_toNat_eq h1, BitVec.eq_of_toNat_eq h2]

theorem fletcherResult_lt {s : State} (h : FletcherInRange s) : (fletcherResult s).toNat < 2 ^ (2 * s.fWc.bits) := by
  obtain ⟨s2, s1, hres, h1, h2⟩ := fletcherResult_eq_packSums h
  rw [hres]
  exact (packSums_parts s.fWc h1 h2).1

/-- Settles O41: FL.FINAL reads no register it writes, so a second one computes the same. -/
theorem flFinalPadsOnACopy : Obligations.FlFinalPadsOnACopy := by
  refine ⟨decodesAs_bare fun c hc => by simp only [decode, hc]; rfl, fun s h => execFlFinal_of_idle h,
    fun s s1 s2 out ha hrange h1 h2 hout => ?final, fun w ord s => ?afterStart,
    fun s ha hw ho hk hpart h1 h2 => ?abcde⟩
  case final =>
    obtain rfl : out = fletcherResult s := hout.trans (fletcherResult_eq h1 h2).symm
    exact ⟨exec_flFinal_of_open ha, exec_flFinal_of_open ha, fletcherResult_lt hrange⟩
  case afterStart =>
    refine ⟨_, _, exec_flStart w ord s, exec_flFinal_of_open rfl, congrArg okResponse ?_⟩
    exact packSums_zero w
  case abcde =>
    have hres : fletcherResult s = 0xF04FC729#64 := by
      rw [fletcherResult_of_incomplete (by rw [hk]; decide), hw, h1, h2, hpart]
      decide
    rw [exec_flFinal_of_open ha, hres]
    rfl

/-! What a Fletcher command leaves alone. -/

/-- FL.BYTE keeps the parameters of the session, rejected or not (42_fletcher.md R154). -/
theorem flByte_keeps_parameters {s t : State} {opd : Word} (h : exec (.flByte opd) s = .next t) :
    s.fActive = t.fActive ∧ s.fWc = t.fWc ∧ s.fOrd = t.fOrd := by
  cases answers_of_exec h with
  | rejected e => exact ⟨rfl, rfl, rfl⟩
  | succeeded hu => cases hu; simp

/-- Settles O50: a rejection keeps every register but STATUS; of a success, each part of the state has its own writers,
and the Fletcher commands are among them only where the statement says. -/
theorem fletcherCommandsKeepTheRest : Obligations.FletcherCommandsKeepTheRest := by
  intro i s t hi h
  have hrst : i ≠ .rst := by rintro rfl; simp at hi
  have hstaged : SameStaged s t :=
    sameStaged_of_exec h (by rintro r v rfl; simp at hi) (by rintro p rfl; simp at hi) hrst
  have hparameters : (∃ d, i = .flByte d) → s.fActive = t.fActive ∧ s.fWc = t.fWc ∧ s.fOrd = t.fOrd := by
    rintro ⟨d, rfl⟩
    exact flByte_keeps_parameters h
  refine ⟨hstaged, ?_⟩
  cases answers_of_exec h with
  | rejected e =>
    exact ⟨⟨rfl, rfl, rfl, rfl, rfl, rfl⟩, rfl, rfl, ⟨rfl, rfl, rfl, rfl⟩, rfl, rfl,
      fun _ => ⟨rfl, rfl, rfl, rfl, rfl, rfl, rfl⟩, fun _ => rfl, hparameters⟩
  | succeeded hu =>
    refine ⟨?crcParameters, ?crcReg, ?crcOut, ?table, (freeDraws_of_succeeds hu hrst).symm,
      (hostStream_of_succeeds hu).symm, ?session, fun hfinal => (flOut_of_succeeds hu hfinal hrst).symm, hparameters⟩
    case crcParameters => exact { sameCrcParameters_of_succeeds hu (by rintro rfl; simp at hi) hrst with }
    case crcReg =>
      refine (crcReg_of_succeeds hu (by rintro rfl; simp at hi) hrst ?_).symm
      rintro opd (rfl | rfl) <;> simp at hi
    case crcOut => exact (crcOut_of_succeeds hu (by rintro rfl; simp at hi) hrst).symm
    case table =>
      exact { sameTable_of_succeeds hu (by rintro opd rfl; simp at hi) (by rintro rfl; simp at hi)
        (by rintro opd rfl; simp at hi) hrst with }
    case session =>
      rintro rfl
      exact { sameFletcherSession_of_succeeds hu nofun nofun nofun with }

/-! What a Fletcher command looks at (42_fletcher.md R162). -/

/-- A new session holds nothing of the state it is opened in (42_fletcher.md R153). -/
theorem sameFletcherSession_openFletcherSession (w : Width) (ord : Bool) (s t : State) :
    SameFletcherSession (openFletcherSession w ord s) (openFletcherSession w ord t) :=
  ⟨rfl, rfl, rfl, rfl, rfl, rfl, rfl⟩

theorem sameFletcherSession_takeFletcherByte {s t : State} (h : SameFletcherSession s t) (b : Byte) :
    SameFletcherSession (takeFletcherByte b s) (takeFletcherByte b t) := by
  obtain ⟨ha, hw, ho, h1, h2, hpart, hk⟩ := h
  by_cases hn : (t.fNpart + 1#3).toNat = t.fWc.bytes
  · rw [takeFletcherByte_complete b hn, takeFletcherByte_complete b (s := s) (by rw [hk, hw]; exact hn),
      hw, ho, h1, h2, hpart, hk]
    exact ⟨ha, rfl, rfl, rfl, rfl, rfl, rfl⟩
  · rw [takeFletcherByte_incomplete b hn, takeFletcherByte_incomplete b (s := s) (by rw [hk, hw]; exact hn),
      hw, ho, hpart, hk]
    exact ⟨ha, rfl, rfl, h1, h2, rfl, rfl⟩

theorem fletcherResult_congr {s t : State} (h : SameFletcherSession s t) : fletcherResult s = fletcherResult t := by
  obtain ⟨-, hw, -, h1, h2, hpart, hk⟩ := h
  simp only [fletcherResult, hw, h1, h2, hpart, hk]

/-- `SameAnswer o o'`: both outcomes are next states, with one response and one Fletcher session. -/
def SameAnswer (o o' : Host.Outcome State Fault Refusal) : Prop :=
  ∃ s t : State, o = .next s ∧ o' = .next t ∧ s.resp = t.resp ∧ SameFletcherSession s t

theorem sameAnswer_reject {s t : State} (h : SameFletcherSession s t) (e : Err) :
    SameAnswer (.next (reject e s)) (.next (reject e t)) :=
  ⟨_, _, rfl, rfl, rfl, { h with }⟩

theorem sameAnswer_answer {s t : State} (h : SameFletcherSession s t) {d d' : DWord} (hd : d = d') :
    SameAnswer (.next (answer d s)) (.next (answer d' t)) :=
  ⟨_, _, rfl, rfl, hd ▸ rfl, { h with }⟩

theorem sameAnswer_flStart {s t : State} (h : SameFletcherSession s t) (wc : BitVec 2) (ord : Bool) :
    SameAnswer (exec (.flStart wc ord) s) (exec (.flStart wc ord) t) := by
  simp only [exec, execFlStart]
  cases Width.ofCode? wc with
  | none => exact sameAnswer_reject h .illegal
  | some w => exact sameAnswer_answer (sameFletcherSession_openFletcherSession w ord s t) rfl

theorem sameAnswer_flByte {s t : State} (h : SameFletcherSession s t) (opd : Word) :
    SameAnswer (exec (.flByte opd) s) (exec (.flByte opd) t) := by
  rcases byteOperand?_cases opd with ⟨b, rfl, hb⟩ | ⟨hbig, -⟩
  · cases ha : t.fActive with
    | false =>
      rw [execFlByte_of_idle (h.fActive.trans ha), execFlByte_of_idle ha]
      exact sameAnswer_reject h .seq
    | true =>
      rw [exec_flByte_of_open hb (h.fActive.trans ha), exec_flByte_of_open hb ha]
      have htaken := sameFletcherSession_takeFletcherByte h b
      exact sameAnswer_answer htaken (by rw [h.fWc, htaken.flSum1, htaken.flSum2])
  · rw [exec_flByte_of_not_byte hbig, exec_flByte_of_not_byte hbig]
    exact sameAnswer_reject h .type

theorem sameAnswer_flFinal {s t : State} (h : SameFletcherSession s t) :
    SameAnswer (exec .flFinal s) (exec .flFinal t) := by
  cases ha : t.fActive with
  | false =>
    rw [execFlFinal_of_idle (h.fActive.trans ha), execFlFinal_of_idle ha]
    exact sameAnswer_reject h .seq
  | true =>
    rw [exec_flFinal_of_open (h.fActive.trans ha), exec_flFinal_of_open ha]
    have hfinal : SameFletcherSession { s with flOut := fletcherResult s } { t with flOut := fletcherResult t } :=
      { h with }
    exact sameAnswer_answer hfinal (fletcherResult_congr h)

/-- A word that decodes encodes its command, so it has that command's opcode (30_encoding.md R76). -/
theorem fletcherCommand_of_opcField {c : Command} {i : Instr} (hd : decode c = .ok i)
    (ho : opcField c = 0x20 ∨ opcField c = 0x21 ∨ opcField c = 0x22) :
    (∃ wc ord, i = .flStart wc ord) ∨ (∃ d, i = .flByte d) ∨ i = .flFinal := by
  rw [← (encode_of_decode hd).1] at ho
  cases i with
  | flStart wc ord => exact .inl ⟨wc, ord, rfl⟩
  | flByte opd => exact .inr (.inl ⟨opd, rfl⟩)
  | flFinal => exact .inr (.inr rfl)
  | _ => simp [encode] at ho

/-- Settles O55: a word that does not decode is rejected alike; a Fletcher command makes its checks on the session
alone. -/
theorem fletcherCommandsSeeOnlyTheirSession : Obligations.FletcherCommandsSeeOnlyTheirSession := by
  intro c s t rest rest' hs ht ho h
  have htaken : SameFletcherSession { s with hostStream := rest } { t with hostStream := rest' } := { h with }
  cases hd : decode c with
  | error e =>
    rw [step_of_decode_error hs hd, step_of_decode_error ht hd]
    exact sameAnswer_reject htaken .illegal
  | ok i =>
    rw [step_of_decode_ok hs hd, step_of_decode_ok ht hd]
    rcases fletcherCommand_of_opcField hd ho with ⟨wc, ord, rfl⟩ | ⟨opd, rfl⟩ | rfl
    · exact sameAnswer_flStart htaken wc ord
    · exact sameAnswer_flByte htaken opd
    · exact sameAnswer_flFinal htaken

end Sys2Proof.Proofs.FletcherCommands
end

section
/-! SUPPORT. Proof of the statement about whole Fletcher sessions (42_fletcher.md R156): an open session holds what the
whole-buffer function has computed from the bytes so far, every word but FL.START and RST takes it one byte on, or
leaves it, and FL.FINAL pads as the whole-buffer function does. -/

namespace Sys2Proof.Proofs.FletcherSessions

open Sys2Proof.Machine Sys2Proof.Proofs.Inversion Sys2Proof.Proofs.Invariants Sys2Proof.Proofs.HiddenTable
open Sys2Proof.Proofs.Frames Sys2Proof.Proofs.Encoding Sys2Proof.Proofs.CrcCommands Sys2Proof.Proofs.CrcSessions
open Sys2Proof.Proofs.FletcherFunctions Sys2Proof.Proofs.FletcherCommands

/-- `HasTaken w ord d s`: the Fletcher session of `s` is open with width `w` and byte order `ord`, and has taken the
bytes `d`: the sums cover the whole words of `d`, FL_PART and F_NPART the bytes after them (42_fletcher.md R154). -/
structure HasTaken (w : Width) (ord : Bool) (d : List Byte) (s : State) : Prop where
  fActive : s.fActive = true
  fWc : s.fWc = w
  fOrd : s.fOrd = ord
  inRange : FletcherInRange s
  fNpart : s.fNpart.toNat = d.length % w.bytes
  flPart : s.flPart = partialWord w ord d (d.length / w.bytes) (d.length % w.bytes)
  sums : (s.flSum1, s.flSum2) = sumsOfWords w ord d (d.length / w.bytes)

theorem HasTaken.answer {w : Width} {ord : Bool} {d : List Byte} {s : State} (h : HasTaken w ord d s) (data : DWord) :
    HasTaken w ord d (answer data s) := { h with }

/-! FL.START. -/

theorem hasTaken_openFletcherSession (w : Width) (ord : Bool) (s : State) :
    HasTaken w ord [] (openFletcherSession w ord s) where
  fActive := rfl
  fWc := rfl
  fOrd := rfl
  inRange := fletcherInRange_openFletcherSession w ord s
  fNpart := (Nat.zero_mod _).symm
  flPart := by rw [List.length_nil, Nat.zero_mod]; rfl
  sums := by rw [List.length_nil, Nat.zero_div]; rfl

/-! FL.BYTE. -/

/-- The next byte of the buffer goes to the next place of its group. -/
theorem partialWord_concat {w : Width} (ord : Bool) {d : List Byte} {g m : Nat} (h : g * w.bytes + m = d.length)
    (b : Byte) : partialWord w ord (d ++ [b]) g (m + 1) = partialWord w ord d g m ||| byteInWord w ord m b := by
  rw [partialWord_succ, partialWord_append ord h.le, h, List.getD_append_right d _ _ _ le_rfl, Nat.sub_self]
  rfl

/-- The byte that completes a group makes a word of all the group's bytes. -/
theorem sumsOfWords_concat {w : Width} (ord : Bool) {d : List Byte} {g m : Nat} (h : g * w.bytes + m = d.length)
    (hm : m + 1 = w.bytes) (b : Byte) :
    sumsOfWords w ord (d ++ [b]) (g + 1) =
      addWord w (sumsOfWords w ord d g) (partialWord w ord d g m ||| byteInWord w ord m b) := by
  rw [sumsOfWords_succ, sumsOfWords_append ord (by omega), wordOfGroup_eq_partialWord, ← hm, partialWord_concat ord h]

/-- Everything the count of bytes in a group can do at the next byte: start the next group, or count on. -/
theorem group_of_succ {n : Nat} (hn : 0 < n) (k : Nat) :
    (k % n + 1 = n ∧ (k + 1) / n = k / n + 1 ∧ (k + 1) % n = 0) ∨
      (k % n + 1 ≠ n ∧ (k + 1) / n = k / n ∧ (k + 1) % n = k % n + 1) := by
  have hk := Nat.div_add_mod k n
  have hr := Nat.mod_lt k hn
  by_cases hfull : k % n + 1 = n
  · have hsucc : k + 1 = n * (k / n + 1) := by rw [Nat.mul_succ]; omega
    refine .inl ⟨hfull, ?_, ?_⟩
    · rw [hsucc, Nat.mul_div_cancel_left _ hn]
    · rw [hsucc, Nat.mul_mod_right]
  · have hsucc : k + 1 = n * (k / n) + (k % n + 1) := by omega
    have hlt : k % n + 1 < n := by omega
    refine .inr ⟨hfull, ?_, ?_⟩
    · rw [hsucc, Nat.mul_add_div hn, Nat.div_eq_of_lt hlt, Nat.add_zero]
    · rw [hsucc, Nat.mul_add_mod, Nat.mod_eq_of_lt hlt]

theorem hasTaken_takeFletcherByte {w : Width} {ord : Bool} {d : List Byte} {s : State} (h : HasTaken w ord d s)
    (b : Byte) : HasTaken w ord (d ++ [b]) (takeFletcherByte b s) := by
  have hrange := takeFletcherByte_inRange b h.inRange
  have hcount := toNat_fNpart_succ h.inRange
  have hplace : d.length / w.bytes * w.bytes + d.length % w.bytes = d.length := Nat.div_add_mod' _ _
  have hgroup := group_of_succ (bytes_pos w) d.length
  rw [show d.length + 1 = (d ++ [b]).length by simp] at hgroup
  obtain ⟨ha, rfl, rfl, -, hk, hpart, hsums⟩ := h
  rcases hgroup with ⟨hfull, hdiv, hmod⟩ | ⟨hfull, hdiv, hmod⟩
  · rw [takeFletcherByte_complete b (by omega)] at hrange ⊢
    exact {
      fActive := ha, fWc := rfl, fOrd := rfl, inRange := hrange
      fNpart := hmod.symm
      flPart := by rw [hmod]; rfl
      sums := by rw [hdiv, sumsOfWords_concat s.fOrd hplace hfull, ← hsums, ← hpart, ← hk]; rfl }
  · rw [takeFletcherByte_incomplete b (by omega)] at hrange ⊢
    exact {
      fActive := ha, fWc := rfl, fOrd := rfl, inRange := hrange
      fNpart := by rw [hmod, ← hk]; exact hcount
      flPart := by rw [hdiv, hmod, partialWord_concat s.fOrd hplace, ← hpart, ← hk]
      sums := by rw [hdiv, sumsOfWords_append s.fOrd (by omega)]; exact hsums }

/-! FL.FINAL. -/

/-- The result pads the word FL_PART holds, as the whole-buffer function pads the data (42_fletcher.md R155, R156). -/
theorem fletcherResult_of_hasTaken {w : Width} {ord : Bool} {d : List Byte} {s : State} (h : HasTaken w ord d s) :
    fletcherResult s = fletcher d w ord := by
  obtain ⟨-, rfl, rfl, -, hk, hpart, hsums⟩ := h
  have hwords : fletcherSums d s.fWc s.fOrd =
      if 0 < s.fNpart.toNat then addWord s.fWc (s.flSum1, s.flSum2) s.flPart else (s.flSum1, s.flSum2) := by
    rw [fletcherSums_eq_sumsOfWords, hk, hsums, hpart]
    split
    · next hr =>
      have hend : d.length ≤ d.length / s.fWc.bytes * s.fWc.bytes + d.length % s.fWc.bytes :=
        (Nat.div_add_mod' _ _).ge
      have hlast := partialWord_add_of_length_le s.fOrd hend (s.fWc.bytes - d.length % s.fWc.bytes)
      rw [Nat.add_sub_cancel' (Nat.mod_lt _ (bytes_pos _)).le] at hlast
      rw [wordCount_of_incomplete (by omega), sumsOfWords_succ, wordOfGroup_eq_partialWord, hlast]
    · next hr => rw [wordCount_of_aligned (by omega)]
  rw [fletcher, hwords, fletcherResult]

/-! The words between. -/

/-- A command that changes no register of the session leaves what it has taken. -/
theorem HasTaken.congr {w : Width} {ord : Bool} {d : List Byte} {s t : State} (h : HasTaken w ord d s)
    (hst : SameFletcherSession s t) : HasTaken w ord d t := by
  obtain ⟨ha, hw, ho, hrange, hk, hpart, hsums⟩ := h
  obtain ⟨ha', hw', ho', h1', h2', hpart', hk'⟩ := hst
  rw [FletcherInRange, hw', h1', h2', hpart', hk'] at hrange
  exact ⟨ha' ▸ ha, hw' ▸ hw, ho' ▸ ho, hrange, hk' ▸ hk, hpart' ▸ hpart, h1' ▸ h2' ▸ hsums⟩

/-- The words that feed a byte (42_fletcher.md R154). -/
theorem fletcherDataByte?_eq_some {c : Command} {b : Byte} (h : fletcherDataByte? c = some b) :
    ∃ opd, byteOperand? opd = some b ∧ decode c = .ok (.flByte opd) := by
  unfold fletcherDataByte? at h
  split at h
  · next hd => exact ⟨_, h, hd⟩
  · cases h

/-- A word that feeds no byte, starts no session and resets nothing keeps the session, rejected or not. -/
theorem sameFletcherSession_of_step {s t : State} {c : Command} {rest : List HostEvent}
    (hs : s.hostStream = .command c :: rest) (hnot : startsOrResetsFletcher c = false)
    (hb : fletcherDataByte? c = none) (h : step s = .next t) : SameFletcherSession s t := by
  rcases step_command_cases hs h with ⟨e, rfl⟩ | ⟨i, d, u, hd, hu, rfl⟩
  · exact ⟨rfl, rfl, rfl, rfl, rfl, rfl, rfl⟩
  · have hstart : ∀ wc ord, i ≠ .flStart wc ord := by rintro wc ord rfl; simp [startsOrResetsFletcher, hd] at hnot
    have hrst : i ≠ .rst := by rintro rfl; simp [startsOrResetsFletcher, hd] at hnot
    have hbyte : ∀ opd, i ≠ .flByte opd := by
      rintro opd rfl
      cases hu with
      | flByte hopd _ => simp [fletcherDataByte?, hd, hopd] at hb
    exact { sameFletcherSession_of_succeeds hu hstart hbyte hrst with }

/-- A word between FL.START and FL.FINAL takes the session on by its byte, if it feeds one. -/
theorem hasTaken_of_step {w : Width} {ord : Bool} {d : List Byte} {s t : State} {c : Command} {rest : List HostEvent}
    (htaken : HasTaken w ord d s) (hs : s.hostStream = .command c :: rest) (hnot : startsOrResetsFletcher c = false)
    (h : step s = .next t) : HasTaken w ord (d ++ (fletcherDataByte? c).toList) t := by
  cases hb : fletcherDataByte? c with
  | none =>
    rw [Option.toList_none, List.append_nil]
    exact htaken.congr (sameFletcherSession_of_step hs hnot hb h)
  | some b =>
    obtain ⟨opd, hopd, hd⟩ := fletcherDataByte?_eq_some hb
    have hword : HasTaken w ord d { s with hostStream := rest } := { htaken with }
    cases ((step_of_decode_ok hs hd).trans (exec_flByte_of_open hopd hword.fActive)).symm.trans h
    exact (hasTaken_takeFletcherByte hword b).answer _

/-- The rest of a session, by induction on the words before FL.FINAL. -/
theorem run_openFletcherSession {w : Width} {ord : Bool} {d : List Byte} {cs : List Command}
    {rest : List HostEvent} {s : State} (htaken : HasTaken w ord d s)
    (hnot : ∀ c ∈ cs, startsOrResetsFletcher c = false)
    (hs : s.hostStream = commands (cs ++ [encode .flFinal]) ++ rest) :
    ∃ t : State, Host.Core.run Sys2Proof.core (cs.length + 1) s = .next t ∧ t.hostStream = rest ∧
      t.flOut = fletcher (d ++ cs.filterMap fletcherDataByte?) w ord ∧ t.resp = okResponse t.flOut := by
  induction cs generalizing s d with
  | nil =>
    have hfinal := (step_of_decode_ok hs (decode_encode (i := .flFinal) rfl)).trans
      (exec_flFinal_of_open htaken.fActive)
    refine ⟨_, run_succ 0 hfinal, rfl, ?_, rfl⟩
    rw [List.filterMap_nil, List.append_nil]
    exact fletcherResult_of_hasTaken { htaken with }
  | cons c cs ih =>
    obtain ⟨hc, hcs⟩ := List.forall_mem_cons.mp hnot
    obtain ⟨u, hu⟩ := exists_step_eq_next s
    obtain ⟨t, hrun, hrest, hout, hresp⟩ := ih (hasTaken_of_step htaken hs hc hu) hcs (hostStream_of_step hs hu)
    refine ⟨t, (run_succ _ hu).trans hrun, hrest, hout.trans ?_, hresp⟩
    rw [List.append_assoc]
    cases hb : fletcherDataByte? c with
    | none => rw [List.filterMap_cons_none hb]; rfl
    | some b => rw [List.filterMap_cons_some hb]; rfl

/-- Settles O44: FL.START opens a session that has taken no byte; FL.FINAL answers for the bytes taken since. -/
theorem fletcherSessionComputesTheWholeBuffer : Obligations.FletcherSessionComputesTheWholeBuffer := by
  intro s w ord cs rest hnot hs
  have hwf : (Instr.flStart w.code ord).WellFormed := by cases w <;> rfl
  have hstart := (step_of_decode_ok hs (decode_encode hwf)).trans (exec_flStart w ord _)
  rw [run_succ _ hstart]
  exact run_openFletcherSession (d := []) ((hasTaken_openFletcherSession w ord _).answer 0#64) hnot rfl

end Sys2Proof.Proofs.FletcherSessions
end

section
/-! SUPPORT. Proofs of the statements about the engine control commands NOP, RD, WR, RST and CLRERR
(43_engine_control.md R170-R174). -/

namespace Sys2Proof.Proofs.EngineControl

open Sys2Proof.Machine Sys2Proof.Proofs.Inversion Sys2Proof.Proofs.Invariants Sys2Proof.Proofs.Encoding
open Sys2Proof.Proofs.DecodeChecks

/-! NOP. -/

/-- Settles O24: the opcode's arm checks that F and OPD are 0, and the command only answers. -/
theorem nopDoesNothing : Obligations.NopDoesNothing :=
  ⟨decodesAs_bare fun c hc => by simp only [decode, hc]; rfl, by decide, fun _ => rfl⟩

/-! RD. -/

/-- The assigned numbers as ranges (10_state.md R39). -/
theorem assignedNumber_iff {r : BitVec 8} : WellFormed.assignedNumber r = true ↔
    r.toNat ≤ 0x08 ∨ (0x10 ≤ r.toNat ∧ r.toNat ≤ 0x14) ∨ r.toNat = 0x1F := by
  simp only [WellFormed.assignedNumber, Bool.or_eq_true, Bool.and_eq_true, decide_eq_true_iff, or_assoc]

/-- RD of a number of the register map (43_engine_control.md R171). -/
theorem exec_rd {r : BitVec 8} (reg : Reg) (hr : regOfNumber? r = some reg) (s : State) :
    exec (.rd r) s = .next (answer (readReg reg s) s) := by
  simp only [exec, execRd, hr, respond]

theorem exec_rd_of_unassigned {r : BitVec 8} (hr : ¬WellFormed.assignedNumber r = true) (s : State) :
    exec (.rd r) s = .next (reject .illegal s) := by
  have hnone : regOfNumber? r = none := by rwa [← regOfNumber?_isSome, Option.not_isSome_iff_eq_none] at hr
  simp only [exec, execRd, hnone, raise]

/-- Settles O25: the register map names a register for each assigned number, which RD reads, and for no other. -/
theorem rdRespondsWithTheRegister : Obligations.RdRespondsWithTheRegister := by
  refine ⟨?decodes, fun s => ?registers, fun r s hr => exec_rd_of_unassigned (mt assignedNumber_iff.mp hr) s,
    by decide, fun s hout => ?crcOut⟩
  case decodes =>
    exact decodesAs_of_arm rdNumberLegal (· == 0#32) (fun c hc => by simp only [decode, hc]; rfl)
      (fun f => by rw [rdNumberLegal_eq_assignedNumber, assignedNumber_iff]) (fun _ => beq_iff_eq)
  case registers =>
    exact ⟨exec_rd .crcPoly rfl s, exec_rd .crcInit rfl s, exec_rd .crcXorout rfl s, exec_rd .crcCtrl rfl s,
      exec_rd .crcReg rfl s, exec_rd .crcOut rfl s, exec_rd .crcAstat rfl s, exec_rd .crcApoly rfl s,
      exec_rd .crcAxor rfl s, exec_rd .flSum1 rfl s, exec_rd .flSum2 rfl s, exec_rd .flPart rfl s,
      exec_rd .flStat rfl s, exec_rd .flOut rfl s, exec_rd .status rfl s⟩
  case crcOut =>
    have hread : readReg .crcOut s = 0xF4#64 := congrArg (BitVec.setWidth 64) hout
    rw [exec_rd .crcOut rfl s, hread]
    rfl

/-! WR. -/

/-- WR that its checks let through (43_engine_control.md R172). -/
theorem exec_wr_of_some {r : BitVec 8} {v : Word} {s u : State} (hw : writeReg? r v s = some u) :
    exec (.wr r v) s = .next (answer 0#64 u) := by
  simp only [exec, execWr, hw, respond]

theorem exec_wr_of_none {r : BitVec 8} {v : Word} {s : State} (hw : writeReg? r v s = none) :
    exec (.wr r v) s = .next (reject .illegal s) := by
  simp only [exec, execWr, hw, raise]

theorem writeReg?_crcCtrl (v : Word) (s : State) :
    writeReg? 0x03#8 v s = (ctrlOfWord? v).map fun c => { s with crcCtrl := c } := rfl

/-- The staged registers are the numbers 0x00 to 0x03 (10_state.md R39). -/
theorem toNat_le_three_of_staged : ∀ {r : BitVec 8},
    regOfNumber? r ∈ [some .crcPoly, some .crcInit, some .crcXorout, some .crcCtrl] → r.toNat ≤ 0x03 := by
  decide +kernel

theorem writeReg?_of_three_lt {r : BitVec 8} (hr : 0x03 < r.toNat) (v : Word) (s : State) :
    writeReg? r v s = none := by
  have hstaged := mt (toNat_le_three_of_staged (r := r)) (by omega)
  unfold writeReg?
  split
  case h_5 => rfl
  all_goals next hreg => exact absurd (by simp [hreg]) hstaged

/-- Settles O27: the number selects the register, and CRC_CTRL takes a value exactly when the value has fields. -/
theorem wrWritesAStagedRegister : Obligations.WrWritesAStagedRegister := by
  refine ⟨?decodes, fun v s => ⟨rfl, rfl, rfl, fun hlegal => ?ctrlLegal, fun hillegal => ?ctrlIllegal⟩,
    fun r v s hr => exec_wr_of_none (writeReg?_of_three_lt hr v s), by decide⟩
  case decodes =>
    exact decodesAs_of_arm wrNumberLegal (fun _ => true) (fun c hc => by simp only [decode, hc]; rfl)
      (fun _ => wrNumberLegal_eq_true) (fun _ => iff_of_true rfl trivial)
  case ctrlLegal =>
    rcases ctrlOfWord?_cases v with ⟨-, -, c, hc, hword⟩ | ⟨hillegal, -⟩
    · exact ⟨c, hword, exec_wr_of_some ((writeReg?_crcCtrl v s).trans (congrArg (Option.map _) hc))⟩
    · exact absurd hlegal hillegal
  case ctrlIllegal =>
    rcases ctrlOfWord?_cases v with ⟨hlt, hwidth, -⟩ | ⟨-, hnone⟩
    · exact absurd ⟨hlt, hwidth⟩ hillegal
    · exact exec_wr_of_none ((writeReg?_crcCtrl v s).trans (congrArg (Option.map _) hnone))

/-! RST. -/

/-- RD CRC_POLY in a state with the reset values (10_state.md R44). -/
theorem exec_rd_crcPoly_of_atReset {s : State} (h : AtReset s) :
    exec (.rd 0x00#8) s = .next (answer 7#64 s) := by
  have hread : readReg .crcPoly s = 7#64 := congrArg (BitVec.setWidth 64) h.crcPoly
  rw [exec_rd .crcPoly rfl s, hread]

/-- A power-on reset leaves what RST leaves, but for the response (70_reset_and_hazards.md R230). -/
theorem powerOn_eq_resetEngine_without_resp (d : DWord) (s : State) :
    powerOn s = { answer d (resetEngine s) with resp := none } := rfl

/-- Settles O28: RST leaves the reset values and answers; a power-on reset is the same reset without the answer. -/
theorem rstResetsTheEngine : Obligations.RstResetsTheEngine := by
  refine ⟨decodesAs_bare fun c hc => by simp only [decode, hc]; rfl, fun s => ?rst⟩
  have hreset : AtReset (answer 0#64 (resetEngine s)) := atReset_answer (atReset_resetEngine s) 0#64
  refine ⟨_, rfl, hreset, rfl, rfl, exec_rd_crcPoly_of_atReset hreset, fun u hu => ?powerOn⟩
  rw [step_powerOnReset rfl] at hu
  cases hu
  exact ⟨atReset_powerOn _, congrArg withoutCache (powerOn_eq_resetEngine_without_resp 0#64 s)⟩

/-! CLRERR. -/

/-- Settles O29: a rejection, CLRERR's own too, records E_ILLEGAL in STATUS (60_exceptions.md R207). -/
theorem clrerrClearsStatus : Obligations.ClrerrClearsStatus :=
  ⟨decodesAs_bare fun c hc => by simp only [decode, hc]; rfl, fun _ => rfl,
    fun s => ⟨lastErr_statusAfter .illegal s.status, getLsbD_statusAfter_code .illegal s.status⟩⟩

end Sys2Proof.Proofs.EngineControl
end

section
/-! SUPPORT. Proofs of the statements about rejections, responses and waiting (60_exceptions.md R206-R208, R217): each
reads off what a step on a command word can leave. -/

namespace Sys2Proof.Proofs.Responses

open Sys2Proof.Machine Sys2Proof.Proofs.Inversion Sys2Proof.Proofs.Invariants Sys2Proof.Proofs.HiddenTable
open Sys2Proof.Proofs.FieldRegisters Sys2Proof.Proofs.Writers Sys2Proof.Proofs.Frames Sys2Proof.Proofs.CrcSessions

/-! Waiting. -/

/-- Settles O9: a step with no event waiting is none of the other three kinds of step. -/
theorem stepWaitsWithNoCommand : Obligations.StepWaitsWithNoCommand := by
  intro s hs
  rcases step_cases s with ⟨-, h⟩ | ⟨rest, hcons, -⟩ | ⟨c, rest, i, hcons, -⟩ | ⟨c, rest, e, hcons, -⟩
  · exact h
  all_goals exact absurd (hs.symm.trans hcons) (List.cons_ne_nil _ _).symm

/-! Responses. -/

theorem toNat_errCode_le_four (e : Err) : e.code.toNat ≤ 4 := by cases e <;> decide

/-- A step on a command word leaves a response: the data of a success, or the code of an error with data 0
(60_exceptions.md R206, R208). -/
theorem response_of_step {s t : State} {c : Command} {rest : List HostEvent}
    (hs : s.hostStream = .command c :: rest) (h : step s = .next t) :
    (∃ d, t.resp = okResponse d) ∨ ∃ e : Err, t.resp = errorResponse e.code := by
  rcases step_command_cases hs h with ⟨e, rfl⟩ | ⟨i, d, u, -, -, rfl⟩
  · exact .inr ⟨e, rfl⟩
  · exact .inl ⟨d, rfl⟩

/-- Every step takes the event it answers to, if one is waiting (20_memory.md R60). -/
theorem hostStream_tail_of_step {s t : State} (h : step s = .next t) : t.hostStream = s.hostStream.tail := by
  rcases step_next_cases h with ⟨hs, rfl⟩ | ⟨rest, hs, rfl⟩ | ⟨c, rest, hs, -⟩
  · rw [hs]; rfl
  · rw [hs]; rfl
  · rw [hostStream_of_step hs h, hs]; rfl

/-- Settles O10: no step faults or is refused, and a command word leaves the response of a success or of an error. -/
theorem everyCommandGetsOneResponse : Obligations.EveryCommandGetsOneResponse := by
  intro s
  obtain ⟨t, ht⟩ := exists_step_eq_next s
  refine ⟨t, ht, hostStream_tail_of_step ht, fun c rest hs => ?_⟩
  rcases response_of_step hs ht with ⟨d, hok⟩ | ⟨e, herr⟩
  · exact ⟨_, hok, Nat.zero_le 4, fun hne => absurd rfl hne⟩
  · exact ⟨_, herr, toNat_errCode_le_four e, fun _ => rfl⟩

/-! Rejections. -/

/-- A step that responds with an error code has rejected its word (60_exceptions.md R206). -/
theorem eq_reject_of_errorResponse {s t : State} {c : Command} {rest : List HostEvent} {r : Response}
    (hs : s.hostStream = .command c :: rest) (h : step s = .next t) (hr : t.resp = some r) (hne : r.code ≠ 0#8) :
    ∃ e, t = reject e { s with hostStream := rest } ∧ r = { code := e.code, data := 0#64 } := by
  rcases step_command_cases hs h with ⟨e, rfl⟩ | ⟨i, d, u, -, -, rfl⟩
  · exact ⟨e, rfl, (Option.some.inj hr).symm⟩
  · exact absurd (congrArg Response.code (Option.some.inj hr).symm) hne

/-- Settles O6: an error code means a rejection, which writes STATUS and the response port only. -/
theorem rejectedCommandChangesOnlyStatus : Obligations.RejectedCommandChangesOnlyStatus := by
  intro c s t rest r hs h hr hne
  obtain ⟨e, rfl, rfl⟩ := eq_reject_of_errorResponse hs h hr hne
  exact ⟨rfl, rfl⟩

/-! STATUS. -/

/-- A code fits the four bits of LAST_ERR (10_state.md R37). -/
theorem getLsbD_errCode_of_four_le (e : Err) {j : Nat} (hj : 4 ≤ j) : e.code.getLsbD j = false := by
  have hlt : e.code.toNat < 2 ^ j :=
    calc e.code.toNat < 2 ^ 4 := (toNat_errCode_le_four e).trans_lt (by decide)
      _ ≤ 2 ^ j := Nat.pow_le_pow_right (by decide) hj
  rw [← BitVec.testBit_toNat, Nat.testBit_lt_two_pow hlt]

/-- The bits of STATUS after a raised error (60_exceptions.md R207). -/
theorem getLsbD_statusAfter (e : Err) (status : Word) {k : Nat} (hk : k < 32) :
    (statusAfter e status).getLsbD k =
      if k = e.code.toNat then true else if 8 ≤ k ∧ k ≤ 11 then e.code.getLsbD (k - 8) else status.getLsbD k := by
  have hmask : ∀ j : Fin 32, (~~~0x00000F00#32).getLsbD j = !decide (8 ≤ j.val ∧ j.val ≤ 11) := by decide
  have hsticky : (1#32 <<< e.code.toNat).getLsbD k = decide (k = e.code.toNat) := by
    rw [← BitVec.twoPow_eq, BitVec.getLsbD_twoPow, decide_eq_true ((toNat_errCode_le_four e).trans_lt (by decide)),
      Bool.true_and, decide_eq_decide]
    exact eq_comm
  rw [statusAfter, BitVec.getLsbD_or, BitVec.getLsbD_and, BitVec.getLsbD_or, hsticky, hmask ⟨k, hk⟩,
    getLsbD_field _ _ hk]
  have hcode := toNat_errCode_le_four e
  obtain rfl | hne := eq_or_ne k e.code.toNat
  · simp [show ¬8 ≤ e.code.toNat by omega]
  · by_cases hlast : 8 ≤ k ∧ k ≤ 11
    · simp [hne, hlast]
    · have hfield : (decide (8 ≤ k) && e.code.getLsbD (k - 8)) = false := by
        rcases (by omega : k < 8 ∨ 4 ≤ k - 8) with hlow | hhigh
        · rw [decide_eq_false (by omega), Bool.false_and]
        · rw [getLsbD_errCode_of_four_le e hhigh, Bool.and_false]
      rw [hfield, if_neg hne, if_neg hlast, decide_eq_false hne, decide_eq_false hlast]
      simp

/-- Only RST and CLRERR write STATUS when they succeed (60_exceptions.md R207). -/
theorem status_of_succeeds {s u : State} {i : Instr} {d : DWord} (hu : Succeeds s i d u) :
    u.status = if i = .rst ∨ i = .clrerr then 0#32 else s.status := by
  cases hu with
  | wr hw => rw [writeReg?_frame hw]; rfl
  | _ => simp

/-- Settles O7: a rejection records its code in STATUS, and of the commands that succeed two write it. -/
theorem raisedErrorIsRecordedInStatus : Obligations.RaisedErrorIsRecordedInStatus := by
  refine ⟨fun c s t rest r k hs h hr hne hk => ?error, fun s hs => ?r207, fun i s t d h hok => ?success⟩
  case error =>
    obtain ⟨e, rfl, rfl⟩ := eq_reject_of_errorResponse hs h hr hne
    exact getLsbD_statusAfter e s.status hk
  case r207 =>
    rw [reject_status, reject_status, hs]
    decide
  case success =>
    obtain ⟨u, hu, rfl⟩ := succeeds_of_okResponse h hok
    exact (status_of_succeeds hu :)

end Sys2Proof.Proofs.Responses
end

section
/-! SUPPORT. Proof of the statement about the one error a command reports (60_exceptions.md R201-R205). The masks of the
opcode table are read as conditions on the fields of a word; for each row they are the decode check of the command's
rule, and the command then makes the checks of the operand, the session and the range in that order. -/

namespace Sys2Proof.Proofs.FirstError

open Sys2Proof.Machine Sys2Proof.Proofs.Inversion Sys2Proof.Proofs.Invariants Sys2Proof.Proofs.Reset
open Sys2Proof.Proofs.Frames Sys2Proof.Proofs.Encoding Sys2Proof.Proofs.CrcCommands Sys2Proof.Proofs.TableCommands
open Sys2Proof.Proofs.FletcherCommands Sys2Proof.Proofs.EngineControl

/-! The masks of the table, by field. -/

theorem opcField_and (c m : Command) : opcField (c &&& m) = opcField c &&& opcField m := BitVec.extractLsb'_and

theorem fField_and (c m : Command) : fField (c &&& m) = fField c &&& fField m := BitVec.extractLsb'_and

theorem rsvField_and (c m : Command) : rsvField (c &&& m) = rsvField c &&& rsvField m := BitVec.extractLsb'_and

theorem opdField_and (c m : Command) : opdField (c &&& m) = opdField c &&& opdField m := BitVec.extractLsb'_and

/-- A word passes a mask when each of its fields does (30_encoding.md R71). -/
theorem and_eq_zero_iff_fields (c m : Command) :
    c &&& m = 0#64 ↔ opcField c &&& opcField m = 0#8 ∧ rsvField c &&& rsvField m = 0#16 ∧
      fField c &&& fField m = 0#8 ∧ opdField c &&& opdField m = 0#32 := by
  rw [← opcField_and, ← rsvField_and, ← fField_and, ← opdField_and]
  exact ⟨fun h => by rw [h]; decide, fun ⟨ho, hr, hf, hd⟩ => command_ext ho hf hr hd⟩

theorem and_assemble_eq_zero_iff (c : Command) (o f : BitVec 8) (r : BitVec 16) (d : Word) :
    c &&& assemble o f r d = 0#64 ↔
      opcField c &&& o = 0#8 ∧ rsvField c &&& r = 0#16 ∧ fField c &&& f = 0#8 ∧ opdField c &&& d = 0#32 := by
  simpa only [opcField_assemble, rsvField_assemble, fField_assemble, opdField_assemble] using
    and_eq_zero_iff_fields c (assemble o f r d)

/-- The mask of a command with no operand (30_encoding.md R72). -/
theorem and_bareMask_eq_zero_iff (c : Command) :
    c &&& 0x00FFFFFFFFFFFFFF#64 = 0#64 ↔ rsvField c = 0#16 ∧ fField c = 0#8 ∧ opdField c = 0#32 :=
  (and_assemble_eq_zero_iff c 0#8 (BitVec.allOnes 8) (BitVec.allOnes 16) (BitVec.allOnes 32)).trans (by
    simp only [BitVec.and_allOnes, BitVec.and_zero, true_and])

/-- The mask of a command whose operand is in F (30_encoding.md R72). -/
theorem and_fMask_eq_zero_iff (c : Command) :
    c &&& 0x0000FFFFFFFFFFFF#64 = 0#64 ↔ rsvField c = 0#16 ∧ opdField c = 0#32 :=
  (and_assemble_eq_zero_iff c 0#8 0#8 (BitVec.allOnes 16) (BitVec.allOnes 32)).trans (by
    simp only [BitVec.and_allOnes, BitVec.and_zero, true_and])

/-- The mask of a command whose operand is in OPD (30_encoding.md R72). -/
theorem and_opdMask_eq_zero_iff (c : Command) :
    c &&& 0x00FFFFFF00000000#64 = 0#64 ↔ rsvField c = 0#16 ∧ fField c = 0#8 :=
  (and_assemble_eq_zero_iff c 0#8 (BitVec.allOnes 8) (BitVec.allOnes 16) 0#32).trans (by
    simp only [BitVec.and_allOnes, BitVec.and_zero, true_and, and_true])

/-- The mask of WR, which has an operand in F and one in OPD (30_encoding.md R72). -/
theorem and_wrMask_eq_zero_iff (c : Command) : c &&& 0x0000FFFF00000000#64 = 0#64 ↔ rsvField c = 0#16 :=
  (and_assemble_eq_zero_iff c 0#8 0#8 (BitVec.allOnes 16) 0#32).trans (by
    simp only [BitVec.and_allOnes, BitVec.and_zero, true_and, and_true])

/-- The mask of FL.START, whose F[7:3] is 0 (30_encoding.md R77). -/
theorem and_flStartMask_eq_zero_iff (c : Command) :
    c &&& 0x00F8FFFFFFFFFFFF#64 = 0#64 ↔ rsvField c = 0#16 ∧ (fField c).toNat < 8 ∧ opdField c = 0#32 := by
  have hf : ∀ f : BitVec 8, f &&& 0xF8#8 = 0#8 ↔ f.toNat < 8 := by decide +kernel
  have h := and_assemble_eq_zero_iff c 0#8 0xF8#8 (BitVec.allOnes 16) (BitVec.allOnes 32)
  simp only [BitVec.and_allOnes, BitVec.and_zero, true_and, hf] at h
  exact h

/-- An operand with no bit in [31:8] is a byte (30_encoding.md R74). -/
theorem and_upperBits_eq_zero_iff (v : Word) : v &&& 0xFFFFFF00#32 = 0#32 ↔ v.toNat < 256 := by
  have hsplit : v = (v &&& 0xFFFFFF00#32) ||| (v &&& Width.w8.mask) := by
    rw [← BitVec.and_or_distrib_left]; exact BitVec.and_allOnes.symm
  refine ⟨fun h => ?_, fun h => ?_⟩
  · rw [h, BitVec.zero_or] at hsplit
    rw [hsplit]
    exact Width.w8.and_mask_lt v
  · rw [← Width.and_mask_of_lt (w := .w8) h, BitVec.and_assoc]
    exact BitVec.and_zero

/-- The type check of a byte operand (60_exceptions.md R202). -/
theorem and_typeMask_ne_zero_iff (c : Command) :
    c &&& 0x00000000FFFFFF00#64 ≠ 0#64 ↔ 256 ≤ (opdField c).toNat := by
  have h := and_assemble_eq_zero_iff c 0#8 0#8 0#16 0xFFFFFF00#32
  simp only [BitVec.and_zero, true_and, and_upperBits_eq_zero_iff] at h
  exact (not_congr h).trans not_lt

/-! The row of a word. -/

/-- A word has the opcode of its row (30_encoding.md R76). -/
theorem opcField_of_rowOf? {c : Command} {row : OpcodeRow} (h : rowOf? c = some row) :
    opcField c = opcField row.value := by
  have hvalue : c &&& opcodeMask = row.value :=
    eq_of_beq (List.find?_some (p := fun row : OpcodeRow => c &&& opcodeMask == row.value) h)
  rw [← hvalue, opcField_and]
  exact BitVec.and_allOnes.symm

theorem and_opcodeMask (c : Command) : c &&& opcodeMask = assemble (opcField c) 0 0 0 :=
  command_ext (by rw [opcField_and, opcField_assemble]; exact BitVec.and_allOnes)
    (by rw [fField_and, fField_assemble]; exact BitVec.and_zero)
    (by rw [rsvField_and, rsvField_assemble]; exact BitVec.and_zero)
    (by rw [opdField_and, opdField_assemble]; exact BitVec.and_zero)

/-- The table has a row for every command (30_encoding.md R76). -/
theorem rowOf?_encode_isSome (i : Instr) : (rowOf? (encode i)).isSome = true := by
  rw [rowOf?, and_opcodeMask]
  cases i <;> rw [encode, opcField_assemble] <;> rfl

/-- A word with no row does not decode (30_encoding.md R77, check 1). -/
theorem decode_of_rowOf?_eq_none {c : Command} (h : rowOf? c = none) : ∃ e, decode c = .error e := by
  cases hd : decode c with
  | error e => exact ⟨e, rfl⟩
  | ok i =>
    have hsome := rowOf?_encode_isSome i
    rw [(encode_of_decode hd).1, h] at hsome
    cases hsome

/-! The errors of a word whose row accepts it. -/

/-- E_SEQ, then E_RANGE: the errors that depend on the state (60_exceptions.md R205). -/
def stateError (c : Command) (s : State) : Option Err :=
  if sequenceError c s then some .seq else if rangeError c s then some .range else none

theorem expectedError_of_no_row {c : Command} (hrow : rowOf? c = none) (s : State) :
    expectedError c s = some .illegal := by
  rw [expectedError, tableError, hrow]

theorem expectedError_of_not_accepted {c : Command} {row : OpcodeRow} (hrow : rowOf? c = some row)
    (h : ¬(c &&& row.mustBeZero = 0#64 ∧ row.legal c = true)) (s : State) : expectedError c s = some .illegal := by
  have hbad : c &&& row.mustBeZero ≠ 0#64 ∨ row.legal c = false := by
    rwa [not_and_or, Bool.not_eq_true] at h
  simp only [expectedError, tableError, hrow, if_pos hbad]

theorem expectedError_of_accepted {c : Command} {row : OpcodeRow} (hrow : rowOf? c = some row)
    (h : c &&& row.mustBeZero = 0#64 ∧ row.legal c = true) (s : State) :
    expectedError c s = if c &&& row.typeCheck ≠ 0#64 then some .type else stateError c s := by
  have hgood : ¬(c &&& row.mustBeZero ≠ 0#64 ∨ row.legal c = false) := by
    rwa [← Bool.not_eq_true, ← not_and_or, not_not]
  simp only [expectedError, tableError, hrow, if_neg hgood]
  by_cases htype : c &&& row.typeCheck ≠ 0#64
  · simp only [if_pos htype]
  · simp only [if_neg htype, stateError]

/-- The commands that succeed in every state (60_exceptions.md R201, R204). -/
theorem stateError_eq_none {c : Command} (s : State)
    (hc : opcField c ∈ [0x00#8, 0x01#8, 0x02#8, 0x03#8, 0x04#8, 0x10#8, 0x20#8]) : stateError c s = none := by
  simp only [List.mem_cons, List.not_mem_nil, or_false] at hc
  rcases hc with hc | hc | hc | hc | hc | hc | hc <;> simp [stateError, sequenceError, rangeError, hc]

/-- The data and finalisation commands of the CRC units need an open session (60_exceptions.md R204). -/
theorem stateError_crcSession {c : Command} (s : State) (hc : opcField c ∈ [0x12#8, 0x13#8, 0x14#8]) :
    stateError c s = if s.aActive then none else some .seq := by
  simp only [List.mem_cons, List.not_mem_nil, or_false] at hc
  cases ha : s.aActive <;> rcases hc with hc | hc | hc <;> simp [stateError, sequenceError, rangeError, hc, ha]

/-- The data and finalisation commands of the Fletcher unit need an open session (60_exceptions.md R204). -/
theorem stateError_fletcherSession {c : Command} (s : State) (hc : opcField c ∈ [0x21#8, 0x22#8]) :
    stateError c s = if s.fActive then none else some .seq := by
  simp only [List.mem_cons, List.not_mem_nil, or_false] at hc
  cases ha : s.fActive <;> rcases hc with hc | hc <;> simp [stateError, sequenceError, rangeError, hc, ha]

/-- A value at or above `2^w` does not fit (60_exceptions.md R201). -/
theorem decide_le_eq_not_fits (w : Width) (v : Word) : decide (2 ^ w.bits ≤ v.toNat) = !w.fits v := by
  rw [Width.fits, ← decide_not, decide_eq_decide]
  exact not_lt.symm

/-- CRC.START checks the whole staged configuration (60_exceptions.md R201). -/
theorem stateError_crcStart {c : Command} (s : State) (hc : opcField c = 0x11#8) :
    stateError c s = if stagedFits s then none else some .range := by
  have hrange : rangeError c s = !stagedFits s := by
    simp [rangeError, hc, stagedFits, decide_le_eq_not_fits]
  have hseq : sequenceError c s = false := by simp [sequenceError, hc]
  rw [stateError, hrange, hseq]
  cases stagedFits s <;> rfl

/-- The table commands check the staged polynomial (60_exceptions.md R201). -/
theorem stateError_table {c : Command} (s : State) (hc : opcField c ∈ [0x18#8, 0x19#8]) :
    stateError c s = if stagedPolyFits s then none else some .range := by
  simp only [List.mem_cons, List.not_mem_nil, or_false] at hc
  have hrange : rangeError c s = !stagedPolyFits s := by
    rcases hc with hc | hc <;> simp [rangeError, hc, stagedPolyFits, decide_le_eq_not_fits]
  have hseq : sequenceError c s = false := by rcases hc with hc | hc <;> simp [sequenceError, hc]
  rw [stateError, hrange, hseq]
  cases stagedPolyFits s <;> rfl

/-! What a step reports. -/

/-- The outcome reports the error by rejecting the state, or reports no error by a success. -/
def Reports (s : State) : Option Err → Host.Outcome State Fault Refusal → Prop
  | some e, outcome => outcome = .next (reject e s)
  | none, outcome => ∃ d u, outcome = .next (answer d u)

/-- A command that passes its checks answers OK: the converse of the inversion `answers_of_exec`. -/
theorem reports_of_succeeds {s u : State} {i : Instr} {d : DWord} (hu : Succeeds s i d u) :
    Reports s none (exec i s) := by
  refine ⟨d, u, ?_⟩
  cases hu with
  | nop | rst | clrerr => rfl
  | rd hr => exact exec_rd _ hr s
  | wr hw => exact exec_wr_of_some hw
  | crcPreset hp => simp only [exec, execCrcPreset, hp, respond]
  | crcStart hf => exact exec_crcStart_of_fits hf
  | crcByteB hb ha hr => exact exec_crcByteB_of_open hb ha hr
  | crcByteT hb ha hr => simp only [exec, execCrcByteT, hb, if_pos ha, ← hr, respond]
  | crcFinal ha ho => rw [exec_crcFinal_of_open ha, ho]
  | tabBuild hf => exact exec_tabBuild_of_fits hf
  | tabRead hj hf => simp only [exec, execTabRead, hj, if_pos hf, respond]
  | flStart hw => simp only [exec, execFlStart, hw, respond]
  | flByte hb ha => rw [exec_flByte_of_open hb ha, takeFletcherByte_fWc]
  | flFinal ha => exact exec_flFinal_of_open ha

/-- A command that makes no check of the state. -/
theorem reports_unchecked {c : Command} {s u : State} {i : Instr} {d : DWord}
    (hc : opcField c ∈ [0x00#8, 0x01#8, 0x02#8, 0x03#8, 0x04#8, 0x10#8, 0x20#8]) (hu : Succeeds s i d u) :
    Reports s (stateError c s) (exec i s) := by
  rw [stateError_eq_none s hc]
  exact reports_of_succeeds hu

/-- A command with one check of the state. -/
theorem reports_check {s : State} {i : Instr} {passes : Bool} {e : Err}
    (hfail : passes = false → exec i s = .next (reject e s))
    (hpass : passes = true → ∃ d u, Succeeds s i d u) : Reports s (if passes then none else some e) (exec i s) := by
  cases passes with
  | false => exact hfail rfl
  | true =>
    obtain ⟨d, u, hu⟩ := hpass rfl
    exact reports_of_succeeds hu

/-- WR with a number it may write: the value check of CRC_CTRL is its own (43_engine_control.md R172). -/
theorem reports_wr {r : BitVec 8} (hr : r.toNat ≤ 3) (v : Word) (s : State) :
    Reports s (if r.toNat ≠ 3 ∨ (v.toNat < 16 ∧ v.toNat % 4 ≠ 3) then none else some .illegal) (exec (.wr r v) s) := by
  have hnumber : r = 0#8 ∨ r = 1#8 ∨ r = 2#8 ∨ r = 3#8 := by bv_omega
  rcases hnumber with rfl | rfl | rfl | rfl
  · exact reports_of_succeeds (.wr (u := { s with crcPoly := v }) rfl)
  · exact reports_of_succeeds (.wr (u := { s with crcInit := v }) rfl)
  · exact reports_of_succeeds (.wr (u := { s with crcXorout := v }) rfl)
  · have hthree : ¬(3#8).toNat ≠ 3 := by decide
    rcases ctrlOfWord?_cases v with ⟨hlt, hwidth, ctrl, hctrl, -⟩ | ⟨hillegal, hnone⟩
    · rw [if_pos (.inr ⟨hlt, hwidth⟩)]
      exact reports_of_succeeds (.wr ((writeReg?_crcCtrl v s).trans (congrArg (Option.map _) hctrl)))
    · rw [if_neg (not_or.mpr ⟨hthree, hillegal⟩)]
      exact exec_wr_of_none ((writeReg?_crcCtrl v s).trans (congrArg (Option.map _) hnone))

/-! Each command of a word with its opcode reports the error of the state. -/

section Commands

variable {c : Command} (u : State)

theorem reports_rd (hc : opcField c = 0x01#8) {r : BitVec 8} (hr : WellFormed.assignedNumber r = true) :
    Reports u (stateError c u) (exec (.rd r) u) := by
  obtain ⟨reg, hreg⟩ := Option.isSome_iff_exists.mp ((regOfNumber?_isSome r).trans hr)
  exact reports_unchecked (by rw [hc]; decide) (.rd hreg)

theorem reports_crcPreset (hc : opcField c = 0x10#8) {p : BitVec 8} (hp : p.toNat ≤ 2) :
    Reports u (stateError c u) (exec (.crcPreset p) u) := by
  obtain ⟨cfg, hcfg⟩ := Option.isSome_iff_exists.mp ((presetOfNumber?_isSome p).trans (decide_eq_true hp))
  exact reports_unchecked (by rw [hc]; decide) (.crcPreset hcfg)

theorem reports_flStart (hc : opcField c = 0x20#8) {wc : BitVec 2} (hwc : wc ≠ 3#2) (ord : Bool) :
    Reports u (stateError c u) (exec (.flStart wc ord) u) := by
  obtain ⟨w, hw⟩ := Option.ne_none_iff_exists'.mp (mt (Width.ofCode?_eq_none wc).mp hwc)
  exact reports_unchecked (by rw [hc]; decide) (.flStart hw)

theorem reports_crcStart (hc : opcField c = 0x11#8) : Reports u (stateError c u) (exec .crcStart u) := by
  rw [stateError_crcStart u hc]
  exact reports_check (fun h => exec_crcStart_of_not_fits (ne_true_of_eq_false h)) fun h => ⟨_, _, .crcStart h⟩

theorem reports_crcByteB (hc : opcField c = 0x12#8) (b : Byte) :
    Reports u (stateError c u) (exec (.crcByteB (b.setWidth 32)) u) := by
  rw [stateError_crcSession u (by rw [hc]; decide)]
  exact reports_check (fun h => execCrcByteB_of_idle h b) fun h => ⟨_, _, .crcByteB (byteOperand?_setWidth b) h rfl⟩

theorem reports_crcByteT (hc : opcField c = 0x13#8) (b : Byte) :
    Reports u (stateError c u) (exec (.crcByteT (b.setWidth 32)) u) := by
  rw [stateError_crcSession u (by rw [hc]; decide)]
  exact reports_check (fun h => execCrcByteT_of_idle h b) fun h => ⟨_, _, .crcByteT (byteOperand?_setWidth b) h rfl⟩

theorem reports_crcFinal (hc : opcField c = 0x14#8) : Reports u (stateError c u) (exec .crcFinal u) := by
  rw [stateError_crcSession u (by rw [hc]; decide)]
  exact reports_check execCrcFinal_of_idle fun h => ⟨_, _, .crcFinal h rfl⟩

theorem reports_tabBuild (hc : opcField c = 0x18#8) : Reports u (stateError c u) (exec .tabBuild u) := by
  rw [stateError_table u (by rw [hc]; decide)]
  exact reports_check (fun h => exec_tabBuild_of_not_fits (ne_true_of_eq_false h)) fun h => ⟨_, _, .tabBuild h⟩

theorem reports_tabRead (hc : opcField c = 0x19#8) (j : Byte) :
    Reports u (stateError c u) (exec (.tabRead (j.setWidth 32)) u) := by
  rw [stateError_table u (by rw [hc]; decide)]
  exact reports_check (fun h => exec_tabRead_of_not_fits (ne_true_of_eq_false h) j)
    fun h => ⟨_, _, .tabRead (byteOperand?_setWidth j) h⟩

theorem reports_flByte (hc : opcField c = 0x21#8) (b : Byte) :
    Reports u (stateError c u) (exec (.flByte (b.setWidth 32)) u) := by
  rw [stateError_fletcherSession u (by rw [hc]; decide)]
  exact reports_check (fun h => execFlByte_of_idle h b) fun h => ⟨_, _, .flByte (byteOperand?_setWidth b) h⟩

theorem reports_flFinal (hc : opcField c = 0x22#8) : Reports u (stateError c u) (exec .flFinal u) := by
  rw [stateError_fletcherSession u (by rw [hc]; decide)]
  exact reports_check execFlFinal_of_idle fun h => ⟨_, _, .flFinal h⟩

end Commands

/-! A step on a word of each kind of row. -/

section Rows

variable {c : Command} {s : State} {rest : List HostEvent} {row : OpcodeRow} {opc : BitVec 8}
variable {mnemonic : String} {value : Command}

/-- A word with no row reports E_ILLEGAL (60_exceptions.md R203). -/
theorem reports_of_no_row (hs : s.hostStream = .command c :: rest) (hrow : rowOf? c = none) :
    Reports { s with hostStream := rest } (expectedError c s) (step s) := by
  obtain ⟨e, hd⟩ := decode_of_rowOf?_eq_none hrow
  rw [expectedError_of_no_row hrow]
  exact step_of_decode_error hs hd

/-- A command whose rule checks the word as `DecodesAs` says: a word the rule rejects is one its row rejects, and for
any other word the outcome is that of the command. -/
theorem reports_of_decodesAs {fOk : BitVec 8 → Prop} {opdOk : Word → Prop} {i : BitVec 8 → Word → Instr}
    (hs : s.hostStream = .command c :: rest) (hrow : rowOf? c = some row) (hdec : DecodesAs opc fOk opdOk i)
    (hopc : opcField c = opc)
    (hchecks : c &&& row.mustBeZero = 0#64 ∧ row.legal c = true →
      rsvField c = 0#16 ∧ fOk (fField c) ∧ opdOk (opdField c))
    (hexec : rsvField c = 0#16 → fOk (fField c) → opdOk (opdField c) →
      Reports { s with hostStream := rest } (expectedError c s)
        (exec (i (fField c) (opdField c)) { s with hostStream := rest })) :
    Reports { s with hostStream := rest } (expectedError c s) (step s) := by
  obtain ⟨hgood, hbad⟩ := hdec c hopc
  by_cases h : rsvField c = 0#16 ∧ fOk (fField c) ∧ opdOk (opdField c)
  · rw [step_of_decode_ok hs (hgood h)]
    obtain ⟨hr, hf, hd⟩ := h
    exact hexec hr hf hd
  · rw [expectedError_of_not_accepted hrow (mt hchecks h)]
    exact hbad h s rest hs

/-- A row without a type check, whose other checks are those of the command's rule. -/
theorem reports_of_untypedRow {fOk : BitVec 8 → Prop} {opdOk : Word → Prop} {i : BitVec 8 → Word → Instr}
    (hs : s.hostStream = .command c :: rest) (hrow : rowOf? c = some row) (hdec : DecodesAs opc fOk opdOk i)
    (hopc : opcField c = opc) (htype : row.typeCheck = 0#64)
    (hchecks : c &&& row.mustBeZero = 0#64 ∧ row.legal c = true ↔
      rsvField c = 0#16 ∧ fOk (fField c) ∧ opdOk (opdField c))
    (hexec : ∀ u : State, fOk (fField c) → Reports u (stateError c u) (exec (i (fField c) (opdField c)) u)) :
    Reports { s with hostStream := rest } (expectedError c s) (step s) := by
  refine reports_of_decodesAs hs hrow hdec hopc hchecks.mp fun hr hf hd => ?_
  have hnotype : ¬c &&& row.typeCheck ≠ 0#64 := by rw [htype, not_not]; exact BitVec.and_zero
  rw [expectedError_of_accepted hrow (hchecks.mpr ⟨hr, hf, hd⟩), if_neg hnotype]
  exact hexec { s with hostStream := rest } hf

/-- The row of a command with no operand. -/
theorem reports_of_bareRow {i : Instr} (hs : s.hostStream = .command c :: rest)
    (hrow : rowOf? c = some ⟨mnemonic, value, 0x00FFFFFFFFFFFFFF#64, 0#64, fun _ => true⟩)
    (hdec : DecodesAs opc (· = 0#8) (· = 0#32) fun _ _ => i) (hopc : opcField c = opc)
    (hexec : ∀ u : State, Reports u (stateError c u) (exec i u)) :
    Reports { s with hostStream := rest } (expectedError c s) (step s) :=
  reports_of_untypedRow hs hrow hdec hopc rfl ((and_iff_left rfl).trans (and_bareMask_eq_zero_iff c))
    fun u _ => hexec u

/-- The row of a command whose operand is a byte or a table index: E_TYPE comes before the errors of the state. -/
theorem reports_of_byteRow {i : Word → Instr} (hs : s.hostStream = .command c :: rest)
    (hrow : rowOf? c =
      some ⟨mnemonic, value, 0x00FFFFFF00000000#64, 0x00000000FFFFFF00#64, fun _ => true⟩)
    (hdec : DecodesAs opc (· = 0#8) (fun _ => True) fun _ d => i d) (hopc : opcField c = opc)
    (htype : ∀ (opd : Word) (u : State), 256 ≤ opd.toNat → exec (i opd) u = .next (reject .type u))
    (hexec : ∀ (b : Byte) (u : State), Reports u (stateError c u) (exec (i (b.setWidth 32)) u)) :
    Reports { s with hostStream := rest } (expectedError c s) (step s) := by
  have hchecks : c &&& 0x00FFFFFF00000000#64 = 0#64 ∧ true = true ↔ rsvField c = 0#16 ∧ fField c = 0#8 ∧ True := by
    rw [and_iff_left rfl, and_true, and_opdMask_eq_zero_iff]
  refine reports_of_decodesAs hs hrow hdec hopc hchecks.mp fun hr hf hd => ?_
  rw [expectedError_of_accepted hrow (hchecks.mpr ⟨hr, hf, hd⟩)]
  rcases byteOperand?_cases (opdField c) with ⟨b, hb, hbyte⟩ | ⟨hbig, -⟩
  · have hsmall : ¬256 ≤ (opdField c).toNat := fun hbig => by
      rw [byteOperand?_none hbig] at hbyte; cases hbyte
    rw [if_neg (mt (and_typeMask_ne_zero_iff c).mp hsmall), hb]
    exact hexec b { s with hostStream := rest }
  · rw [if_pos ((and_typeMask_ne_zero_iff c).mpr hbig)]
    exact htype _ _ hbig

/-- The row of a command whose operand is a number in F. -/
theorem reports_of_numberRow {legal : Command → Bool} {fOk : BitVec 8 → Prop} {i : BitVec 8 → Instr}
    (hs : s.hostStream = .command c :: rest)
    (hrow : rowOf? c = some ⟨mnemonic, value, 0x0000FFFFFFFFFFFF#64, 0#64, legal⟩)
    (hdec : DecodesAs opc fOk (· = 0#32) fun f _ => i f) (hopc : opcField c = opc)
    (hlegal : legal c = true ↔ fOk (fField c))
    (hexec : ∀ u : State, fOk (fField c) → Reports u (stateError c u) (exec (i (fField c)) u)) :
    Reports { s with hostStream := rest } (expectedError c s) (step s) := by
  refine reports_of_untypedRow hs hrow hdec hopc rfl ?_ hexec
  rw [and_fMask_eq_zero_iff, hlegal, and_assoc, and_comm (a := opdField c = 0#32)]

/-- The row of FL.START, whose check of F is made by its mask and its legality column together. -/
theorem reports_of_flStartRow (hs : s.hostStream = .command c :: rest) (hopc : opcField c = 0x20)
    (hrow : rowOf? c = some ⟨mnemonic, value, 0x00F8FFFFFFFFFFFF#64, 0#64,
      fun c => decide ((fField c).toNat % 4 ≠ 3)⟩) :
    Reports { s with hostStream := rest } (expectedError c s) (step s) := by
  refine reports_of_untypedRow hs hrow flStartOpensASession.1 hopc rfl ?checks fun u hf => ?exec
  case checks =>
    rw [and_flStartMask_eq_zero_iff, decide_eq_true_iff, and_assoc, and_assoc, and_assoc,
      and_comm (a := opdField c = 0#32)]
  case exec =>
    exact reports_flStart u hopc (flStartField_of_legal _ ((flStartFieldLegal_iff _).mpr hf)).2 _

/-- The row of WR, whose legality column makes the command's own check of a CRC_CTRL value too. -/
theorem reports_of_wrRow (hs : s.hostStream = .command c :: rest) (hopc : opcField c = 0x02)
    (hrow : rowOf? c = some ⟨mnemonic, value, 0x0000FFFF00000000#64, 0#64, wrRowLegal⟩) :
    Reports { s with hostStream := rest } (expectedError c s) (step s) := by
  have hlegal : wrRowLegal c = true ↔ (fField c).toNat ≤ 3 ∧
      ((fField c).toNat ≠ 3 ∨ ((opdField c).toNat < 16 ∧ (opdField c).toNat % 4 ≠ 3)) := by
    simp only [wrRowLegal, Bool.and_eq_true, Bool.or_eq_true, decide_eq_true_iff]
  refine reports_of_decodesAs hs hrow wrWritesAStagedRegister.1 hopc ?checks fun hr hf _ => ?exec
  case checks =>
    rw [and_wrMask_eq_zero_iff, hlegal]
    exact fun ⟨hr, hf, _⟩ => ⟨hr, hf, trivial⟩
  case exec =>
    have hexec := reports_wr hf (opdField c) { s with hostStream := rest }
    by_cases hvalue : (fField c).toNat ≠ 3 ∨ ((opdField c).toNat < 16 ∧ (opdField c).toNat % 4 ≠ 3)
    · have hnotype : ¬c &&& 0#64 ≠ 0#64 := not_not.mpr BitVec.and_zero
      rw [if_pos hvalue] at hexec
      rw [expectedError_of_accepted hrow ⟨(and_wrMask_eq_zero_iff c).mpr hr, hlegal.mpr ⟨hf, hvalue⟩⟩, if_neg hnotype,
        stateError_eq_none s (by rw [hopc]; decide)]
      exact hexec
    · rw [if_neg hvalue] at hexec
      rw [expectedError_of_not_accepted hrow fun h => hvalue (hlegal.mp h.2).2]
      exact hexec

end Rows

/-- Every step on a command word reports the expected error, row by row of the table (60_exceptions.md R205). -/
theorem reports_of_step {c : Command} {s : State} {rest : List HostEvent} (hs : s.hostStream = .command c :: rest) :
    Reports { s with hostStream := rest } (expectedError c s) (step s) := by
  cases hrow : rowOf? c with
  | none => exact reports_of_no_row hs hrow
  | some row =>
    have hopc := opcField_of_rowOf? hrow
    have hmem : row ∈ opcodeTable := List.mem_of_find?_eq_some hrow
    simp only [opcodeTable, List.mem_cons, List.not_mem_nil, or_false] at hmem
    rcases hmem with rfl | rfl | rfl | rfl | rfl | rfl | rfl | rfl | rfl | rfl | rfl | rfl | rfl | rfl | rfl
    · exact reports_of_bareRow hs hrow nopDoesNothing.1 hopc fun u => reports_unchecked (by rw [hopc]; decide) .nop
    · exact reports_of_numberRow hs hrow rdRespondsWithTheRegister.1 hopc assignedNumber_iff
        fun u hf => reports_rd u hopc (assignedNumber_iff.mpr hf)
    · exact reports_of_wrRow hs hopc hrow
    · exact reports_of_bareRow hs hrow rstResetsTheEngine.1 hopc fun u => reports_unchecked (by rw [hopc]; decide) .rst
    · exact reports_of_bareRow hs hrow clrerrClearsStatus.1 hopc
        fun u => reports_unchecked (by rw [hopc]; decide) .clrerr
    · exact reports_of_numberRow hs hrow crcPresetLoadsTheDefaults.1 hopc decide_eq_true_iff
        fun u hf => reports_crcPreset u hopc hf
    · exact reports_of_bareRow hs hrow crcStartLatchesTheConfiguration.1 hopc fun u => reports_crcStart u hopc
    · exact reports_of_byteRow hs hrow crcBytebShiftsInOneByte.1 hopc (fun _ u h => exec_crcByteB_of_not_byte h u)
        fun b u => reports_crcByteB u hopc b
    · exact reports_of_byteRow hs hrow crcBytetStepsThroughTheTable.1 hopc (fun _ u h => exec_crcByteT_of_not_byte h u)
        fun b u => reports_crcByteT u hopc b
    · exact reports_of_bareRow hs hrow crcFinalFinalisesWithoutClosing.1 hopc fun u => reports_crcFinal u hopc
    · exact reports_of_bareRow hs hrow tabBuildChangesOnlyTheCache.1 hopc fun u => reports_tabBuild u hopc
    · exact reports_of_byteRow hs hrow tabReadRespondsWithTheEntry.1 hopc (fun _ u h => exec_tabRead_of_not_byte h u)
        fun j u => reports_tabRead u hopc j
    · exact reports_of_flStartRow hs hopc hrow
    · exact reports_of_byteRow hs hrow flByteAccumulatesOneByte.1 hopc (fun _ u h => exec_flByte_of_not_byte h u)
        fun b u => reports_flByte u hopc b
    · exact reports_of_bareRow hs hrow flFinalPadsOnACopy.1 hopc fun u => reports_flFinal u hopc

/-- Settles O5: the step reports the expected error, which is a rejection, or a success, which responds OK. -/
theorem eachCommandReportsItsFirstError : Obligations.EachCommandReportsItsFirstError := by
  intro c s rest hs
  have hreports := reports_of_step hs
  refine ⟨fun e he => ?error, fun hnone => ?success⟩
  case error => rwa [he] at hreports
  case success =>
    rw [hnone] at hreports
    obtain ⟨d, u, hstep⟩ := hreports
    exact ⟨_, d, hstep, rfl⟩

end Sys2Proof.Proofs.FirstError
end
